-- ==== Sys2Proof/Word.lean ====
section
/-! DEFINITION. The word types of the part: the 16-bit word of the reel link, the signed sample, the
24-bit sequence number, the saturating 32-bit counter and the lane number. -/

namespace Sys2Proof

/-- One word of the reel link (spec: Terms, "16 bits"). -/
abbrev Word := BitVec 16

/-- One reading of the track, a signed 16-bit value (Conventions, Arithmetic on samples). -/
abbrev Sample := BitVec 16

/-- A sequence number: 24 bits, wrapping from 16,777,215 to 0 (Conventions, Sequence numbers). -/
abbrev SeqNum := BitVec 24

/-- A lane counter or port counter: 32 bits, saturating (Conventions, Counters). -/
abbrev Counter := BitVec 32

/-- A lane number, 0..15 (R1). -/
abbrev LaneId := Fin 16

/-- A hum profile number, 0..7 (R30). -/
abbrev ProfileId := Fin 8

/-- A ramp table number, 0..3 (R110). -/
abbrev RampId := Fin 4

end Sys2Proof
end

