-- ==== Sys2Proof/Syntax.lean ====
section
/-! DEFINITION. The commands and events of the part: one constructor per row of spec/opcode_table.json. -/

namespace Sys2Proof

/-- What a receiving pair hands on for one word of a parcel (R174): a word it keeps; a symbol error inside the parcel,
taken as a DATA word of unknown value; or a word after the 517th, which is not kept: it is counted, by standing here, and
taken into the check word, whose register after it is `register`. -/
inductive RxWord where
  | word (w : Word)
  | symbolError
  | unkept (register : Word)
  deriving DecidableEq, Repr

/-- One command or event of the part.

The 25 takes (`configureLane` to `badCommand`) are the events in which the control unit takes the CONTROL parcel at
the head of its queue (R166): the parcel, with tag and argument words, stands in State, so the take has no operand
(log 3). The arrivals carry the words of the parcel in the order received, check word last (R133, R154, R174). The two
link-down events say whether a parcel was being received (R144, R160; log 7). -/
inductive Instr where
  | configureLane
  | startLane
  | stopLane
  | abortLane
  | readLane
  | clearLaneCounters
  | writeHum
  | readHum
  | setHum
  | commitHum
  | resyncHum
  | writeRamp
  | readRamp
  | setPattern
  | attachGenerator
  | attachChecker
  | latchChecker
  | injectError
  | setIntake
  | resumeIntake
  | readPorts
  | setDelivery
  | flushNotices
  | resetPart
  | badCommand
  | resetAssert
  | powerOnStart
  | intakeArrival (words : List RxWord)
  | intakeLinkUp
  | intakeLinkDown (receiving : Bool)
  | intakePaceEnd
  | offer
  | returnArrival (words : List RxWord)
  | deliveryLinkUp
  | deliveryLinkDown (receiving : Bool)
  | deliveryReadyChange (level : Bool)
  | transmissionStart
  | transmissionEnd
  | starvationExpiry (lane : LaneId)
  | batchExpiry
  | repairTake
  | repairCompletion
  deriving DecidableEq, Repr

end Sys2Proof
end

