-- ==== Sys2Proof/Decode.lean ====
section
/-! DEFINITION. The decoder over the rows of spec/opcode_table.json that give bits: there is none, every row's field list
is empty and no row has a match or a mask. The commands a CONTROL parcel carries are told apart by their command
code when they are taken (Sys2Proof/Machine/Operands.lean). -/

namespace Sys2Proof

/-- No row of spec/opcode_table.json gives bits, so no word spells a command. -/
def decodeTableWord (_nbits _w : Nat) : Option Instr := none

end Sys2Proof
end

