-- ==== Sys2Proof/Config.lean ====
section
/-! DEFINITION. The fixed sizes of the part. The spec gives every one of them, so nothing here is a free
value; no rule of the spec leaves a command's result open. -/

namespace Sys2Proof.Config

/-- Places of hold memory, shared by all lanes (R6). -/
def holdPlaces : Nat := 24576

/-- Entries of a mark list (R21). -/
def markListSize : Nat := 8

/-- Entries of one bank of a hum profile (R30). -/
def bankEntries : Nat := 1024

/-- Records of the run table (R51). -/
def runRecords : Nat := 64

/-- Entries of the repair queue (R80). -/
def repairQueueSize : Nat := 16

/-- Parcels of the intake queue (R132). -/
def intakeQueueSize : Nat := 48

/-- Parcels of the sample queue (R148). -/
def sampleQueueSize : Nat := 32

/-- Parcels of the message queue (R148). -/
def messageQueueSize : Nat := 8

/-- Entries of the notice batch (R148). -/
def batchSize : Nat := 8

/-- Parcels of the control queue (R164). -/
def controlQueueSize : Nat := 4

/-- Consecutive matches in VERIFY that lock the checker (R124). -/
def lockRun : Nat := 24

/-- Results the match history keeps (R125). -/
def historySize : Nat := 48

/-- Mismatches in the history at which lock is lost (R125). -/
def lossCount : Nat := 4

/-- Forward distances from here on mean "behind" (Conventions, Sequence numbers). -/
def behindDistance : Nat := 8388608

/-- Words a receiver keeps of one parcel (R174). -/
def keptWords : Nat := 517

end Sys2Proof.Config
end

