-- ==== Sys2Proof/Machine/Blocks.lean ====
section
/-! DEFINITION. The types of the state each block owns, chapter by chapter. -/

namespace Sys2Proof.Machine

/-! ### Chapter 1: lanes -/

/-- The treatment given to a lane (R2). -/
inductive Route where
  | restore | pass | mute | generate | echo | check
  deriving DecidableEq, Repr

/-- When an ARMED lane starts (R2, R15, R22). -/
inductive StartOption where
  | atNextParcel | atReelStart
  deriving DecidableEq, Repr

/-- What leaves in place of unrepaired samples (R2, R76). -/
inductive Fallback where
  | zero | hold | keep
  deriving DecidableEq, Repr

/-- What a level watch hit does (R2, R63, R64). -/
inductive WatchAction where
  | notify | conceal
  deriving DecidableEq, Repr

/-- The configuration record of a lane, its fields in the order of R2. -/
structure LaneConfig where
  route : Route
  startOption : StartOption
  lookahead : Nat
  parcelLimit : Nat
  slack : Nat
  onset : Nat
  release : Nat
  quietCount : Nat
  repairLimit : Nat
  mergeDistance : Nat
  fallback : Fallback
  spliceWidth : Nat
  junctionWidth : Nat
  humProfile : Option ProfileId
  humGain : Nat
  hissEnable : Bool
  rampTable : RampId
  openThreshold : Nat
  closeThreshold : Nat
  holdCount : Nat
  gateNotices : Bool
  watchEnable : Bool
  watchAction : WatchAction
  watchLimitA : Nat
  watchLimitB : Nat
  starvationTime : Nat
  deriving DecidableEq, Repr

/-- The state a lane takes when its drain ends (R1, R10). -/
inductive DrainTarget where
  | armed | off
  deriving DecidableEq, Repr

/-- Where a lane is in its life (R1, R5). Stall pending can be yes only in RUNNING and the drain target is present only
in DRAINING (R1), so each is carried by that constructor. -/
inductive LaneState where
  | off
  | armed
  | running (stallPending : Bool)
  | stalled
  | draining (target : DrainTarget)
  deriving DecidableEq, Repr

/-- A timer in milliseconds: the time left, and whether it counts (R1, R25, R157). -/
structure Timer where
  remaining : Nat
  counting : Bool
  deriving DecidableEq, Repr

/-- The reel event a MARK parcel carries (section 1.7). -/
inductive MarkKind where
  | reelStart | reelEnd | splice | speed | cue
  deriving DecidableEq, Repr

/-- One entry of a mark list (R21). -/
structure MarkEntry where
  kind : MarkKind
  seq : SeqNum
  offset : Nat
  value : Word
  spanPending : Bool
  deriving DecidableEq, Repr

/-- The 16 lane counters, in the order of R27. -/
inductive LaneCounter where
  | parcelsEntered | samplesEntered | marksAccepted | armedDiscards | unclaimed | oversize | order | gaps
  | missingParcels | markListFull | lateSplices | stalls | runsRepaired | runsUnrepaired | runsMissed | levelHits
  deriving DecidableEq, Repr

/-! ### Chapter 2: hum profiles -/

/-- The hum state of a lane (R31). -/
structure LaneHum where
  profile : Option ProfileId
  index : Nat
  restart : Bool
  deriving DecidableEq, Repr

/-- One of the two banks of a profile (R30). -/
inductive BankId where
  | a | b
  deriving DecidableEq, Repr

/-- The contents of one bank (R30): its length, and its 1,024 entries as a list of (index, value) pairs with rising
indices and no pair that holds 0, which is what an unlisted index reads as. -/
structure HumBank where
  length : Nat
  entries : List (Nat × Sample)
  deriving DecidableEq, Repr

/-- The ownership of a bank (R30). -/
inductive Ownership where
  | loading | ready | serving
  deriving DecidableEq, Repr

/-- The event that restarts the phase of the lanes using a profile (R30). -/
inductive ResyncSource where
  | none | command | splice | reelStart
  deriving DecidableEq, Repr

/-- One hum profile (R30). Ownership has exactly the two arrangements R30 gives: one bank is SERVING, and the other is
READY when a swap is pending and LOADING when none is. -/
structure HumProfile where
  bankA : HumBank
  bankB : HumBank
  serving : BankId
  startPhase : Nat
  resync : ResyncSource
  swapPending : Bool
  deriving DecidableEq, Repr

/-! ### Chapter 3: damage detection -/

/-- A set of causes (R47, R51). -/
structure Causes where
  detected : Bool
  splice : Bool
  junction : Bool
  conceal : Bool
  deriving DecidableEq, Repr

/-- Why a run was not repaired (R51). -/
inductive Reason where
  | tooLong | overtaken | noAnchor | queueFull | late
  deriving DecidableEq, Repr

/-- Where a run is in its handling (R51). The reason is present exactly in UNREPAIRED. -/
inductive RunState where
  | opened
  | queued
  | repairing
  | repaired
  | unrepaired (reason : Reason)
  deriving DecidableEq, Repr

/-- One run record in use (R51). Its lane is the lane whose run list holds it; its first-sequence note (R71) stands
with it. Positions are counted without wrapping (log 5). -/
structure RunRecord where
  number : Nat
  causes : Causes
  first : Nat
  last : Nat
  growing : Bool
  state : RunState
  leftAnchor : Option Sample
  rightAnchor : Option Sample
  firstSeq : SeqNum
  deriving DecidableEq, Repr

/-- The detector state of a lane (R47). The open run is the last record of the run list when that record is growing. -/
structure Detector where
  h1 : Sample
  h2 : Sample
  valid : Nat
  lastEntered : Option Sample
  calmCount : Nat
  calmStart : Option Sample
  forcedRemainder : Nat
  forcedCauses : Causes
  runs : List RunRecord
  deriving DecidableEq, Repr

/-- What the entry of one SAMPLES parcel on route RESTORE has found before its first sample is cancelled: the
configuration read at the entry (R58), the parcel, the splice offsets it resolves (R60), and whether a concealment
(R64) and a junction span (R62) begin at its first sample. -/
structure EntryPlan where
  config : LaneConfig
  seq : SeqNum
  count : Nat
  resumed : Bool
  spliceOffsets : List Nat
  conceal : Bool
  gap : Bool
  deriving DecidableEq, Repr

/-! ### Chapter 4: the hold line and repair -/

/-- One held parcel (R71): its samples are those not yet departed. -/
structure HeldParcel where
  seq : SeqNum
  firstPosition : Nat
  count : Nat
  departed : Nat
  route : Route
  fallback : Fallback
  resumed : Bool
  samples : List Sample
  deriving DecidableEq, Repr

/-- The treatment of a departing sample (R76). -/
inductive Treatment where
  | clean | repaired | fallback
  deriving DecidableEq, Repr

/-- An entry of the repair queue: a run number and its lane (R80). -/
structure RepairEntry where
  lane : LaneId
  run : Nat
  deriving DecidableEq, Repr

/-- The repair unit and its queue (R80, R82): BUSY while a run is in progress. -/
structure RepairUnit where
  queue : List RepairEntry
  inProgress : Option RepairEntry
  deriving DecidableEq, Repr

/-! ### Chapter 5: output assembly -/

/-- The flags of a delivery SAMPLES parcel (R101, R176). -/
structure SampleFlags where
  repaired : Bool
  substituted : Bool
  gated : Bool
  muted : Bool
  generated : Bool
  echoed : Bool
  flushed : Bool
  resumed : Bool
  deriving DecidableEq, Repr

/-- The fields of an assembly in use (R97). -/
structure AssemblyBody where
  seq : SeqNum
  count : Nat
  route : Route
  samples : List Sample
  repairedSeen : Bool
  fallbackSeen : Bool
  flushedSeen : Bool
  resumed : Bool
  deriving DecidableEq, Repr

/-- The assembly of a lane (R97). Leading marks and flags are present only in COMPLETE. -/
inductive Assembly where
  | empty
  | building (body : AssemblyBody)
  | complete (body : AssemblyBody) (marks : List MarkEntry) (flags : SampleFlags)
  deriving DecidableEq, Repr

/-- The hiss gate of a lane (R106): HOLDING carries its hold count and CLOSING its gain index; the index is 15 in OPEN
and HOLDING and 0 in CLOSED, and the hold count is 0 outside HOLDING. -/
inductive Gate where
  | opened
  | holding (count : Nat)
  | closing (index : Nat)
  | closed
  deriving DecidableEq, Repr

/-! ### Chapter 6: pattern unit -/

/-- The kind of a pattern (R116). -/
inductive PatternKind where
  | shift15 | constant | alternate
  deriving DecidableEq, Repr

/-- A pattern setting (R116). -/
structure PatternSetting where
  kind : PatternKind
  first : Word
  second : Word
  deriving DecidableEq, Repr

/-- The generator record (R115). -/
structure Generator where
  lane : Option LaneId
  setting : PatternSetting
  next : Word
  single : Bool
  period : Nat
  countdown : Nat
  deriving DecidableEq, Repr

/-- One result of the match history (R115). -/
inductive CheckResult where
  | matched | mismatched
  deriving DecidableEq, Repr

/-- The checker's state (R115). The expected word is absent exactly in SEARCH; the verify run count is 0 in SEARCH and
24 in LOCKED (R124); the match history is empty outside LOCKED. -/
inductive CheckerState where
  | search
  | verify (expected : Word) (run : Nat)
  | locked (expected : Word) (history : List CheckResult)
  deriving DecidableEq, Repr

/-- The checker record (R115). -/
structure Checker where
  lane : Option LaneId
  setting : PatternSetting
  state : CheckerState
  wordCount : Counter
  errorCount : BitVec 24
  wordSaturated : Bool
  errorSaturated : Bool
  deriving DecidableEq, Repr

/-! ### Chapters 7, 8 and 10: ports and links -/

/-- A link carries parcels or does not (R132, R148). -/
inductive LinkState where
  | down | up
  deriving DecidableEq, Repr

/-- A pace state (R132, R148). -/
inductive Pace where
  | stop | go
  deriving DecidableEq, Repr

/-- How a pace state is given: by parcel, by line, or both (R132, R148). -/
inductive PaceForm where
  | byParcel | byLine | both
  deriving DecidableEq, Repr

/-- A symbol of a pair (R174). The word of an IDLE symbol is 0 and is not looked at; `error` is a received symbol that
cannot be decoded. -/
inductive Symbol where
  | idle
  | start (w : Word)
  | data (w : Word)
  | error
  deriving DecidableEq, Repr

/-- The state of one receiving pair (R174): in step or not, the run of IDLE symbols, the run of symbol errors, and the
words so far of the parcel being received, of which at most 517 are kept. -/
structure Receiver where
  inStep : Bool
  idleRun : Nat
  errorRun : Nat
  parcel : Option (List RxWord)
  deriving DecidableEq, Repr

/-- What a symbol brings about at a receiving pair (R174): it comes into step, it falls out of step with or without a
parcel being received, or a parcel arrives. -/
inductive ReceiverEvent where
  | up
  | down (receiving : Bool)
  | arrival (words : List RxWord)
  deriving DecidableEq, Repr

/-- A parcel of the intake queue, with every field as received (R137, R177). -/
inductive InParcel where
  | samples (lane : LaneId) (seq : SeqNum) (samples : List Sample)
  | mark (lane : LaneId) (kind : MarkKind) (seq : SeqNum) (offset : Nat) (value : Word)
  deriving DecidableEq, Repr

/-- What the tests on a parcel arriving at the intake port find (R134). -/
inductive IntakeVerdict where
  | damaged (detail : Nat)
  | misdirected
  | good (parcel : InParcel)
  deriving DecidableEq, Repr

/-- Whether arriving parcels may be admitted (R132). -/
inductive PortState where
  | accepting | halted
  deriving DecidableEq, Repr

/-- The 11 intake counters, in the order of R145. -/
inductive IntakeCounter where
  | arrived | admitted | damaged | misdirected | droppedHalted | overrun | cut | taken | discards | halts | linkDowns
  deriving DecidableEq, Repr

/-- The intake port (R132). -/
structure IntakePort where
  link : LinkState
  port : PortState
  queue : List InParcel
  headWaiting : Bool
  pace : Pace
  lastSent : Option Pace
  sending : Option Pace
  overrunNoticed : Bool
  drops : Nat
  haltLevel : Nat
  resumeLevel : Nat
  form : PaceForm
  haltOnDamage : Bool
  counters : Vector Counter 11
  receiver : Receiver
  deriving DecidableEq, Repr

/-- A parcel of the sample queue, as it will be sent (R149). -/
inductive OutParcel where
  | samples (lane : LaneId) (flags : SampleFlags) (seq : SeqNum) (samples : List Sample)
  | mark (lane : LaneId) (kind : MarkKind) (seq : SeqNum) (offset : Nat) (value : Word)
  deriving DecidableEq, Repr

/-- The notice kinds, in the order of their codes (R178). -/
inductive NoticeKind where
  | runUnrepaired | runTableFull | sequenceGap | sequenceOrder | oversize | spliceLate | markListFull | level
  | gateOpened | gateClosed | laneStalled | laneArmed | laneIdle | humSwapped | intakeOverrun | intakeHalted
  | parcelDamaged | checkLocked | checkLost | checkSaturated
  deriving DecidableEq, Repr

/-- A notice entry (R156); the causes are those of a RUN_UNREPAIRED entry and empty otherwise. -/
structure Notice where
  kind : NoticeKind
  lane : Option LaneId
  seq : SeqNum
  detail : Word
  causes : Causes
  deriving DecidableEq, Repr

/-- The outcome of a command (R167). -/
inductive OutcomeCode where
  | done | badCommand | badLength | badArgument | laneActive | laneIdle | noSpace | bankBusy | swapPending | inUse
  | notAttached
  deriving DecidableEq, Repr

/-- A parcel of the message queue (R150, R158, R168). -/
inductive Message where
  | reply (tag : Word) (outcome : OutcomeCode) (controlLost : Bool) (results : List Word)
  | notice (lost : Bool) (entries : List Notice)
  deriving DecidableEq, Repr

/-- The parcel being sent on the delivery forward pair (R148). -/
inductive Transmission where
  | none | sample | message
  deriving DecidableEq, Repr

/-- The 12 delivery counters, in the order of R161. -/
inductive DeliveryCounter where
  | samplesSent | marksSent | repliesSent | noticesSent | noticesDiscarded | arrivals | paceReceived | damaged
  | misdirected | cut | abandoned | linkDowns
  deriving DecidableEq, Repr

/-- The delivery port (R148). `replyReserved` is yes inside a take only: one place of the message queue is then set
aside for the REPLY of the command being taken (R159, R166; log 8). -/
structure DeliveryPort where
  link : LinkState
  samples : List OutParcel
  messages : List Message
  transmission : Transmission
  form : PaceForm
  lastPace : Pace
  pace : Pace
  batch : List Notice
  timer : Timer
  batchTime : Nat
  commitPending : Bool
  lossFlag : Bool
  counters : Vector Counter 12
  replyReserved : Bool
  receiver : Receiver
  deriving DecidableEq, Repr

/-! ### Chapter 9: the control unit -/

/-- A CONTROL parcel of the control queue: its tag and its payload, command code first (R165, R177, R178). -/
structure ControlParcel where
  tag : Word
  payload : List Word
  deriving DecidableEq, Repr

/-- What the tests on a parcel arriving on the delivery return pair find (R154). -/
inductive ReturnVerdict where
  | damaged
  | misdirected
  | pace (p : Pace)
  | control (parcel : ControlParcel)
  deriving DecidableEq, Repr

/-- The lane's answer to an offer (R14). -/
inductive Answer where
  | take | discard | wait
  deriving DecidableEq, Repr

/-- The 6 control counters, in the order of R172. -/
inductive ControlCounter where
  | received | admitted | lostFull | lostDamaged | replies | refused
  deriving DecidableEq, Repr

/-- The control unit (R164). -/
structure ControlUnit where
  queue : List ControlParcel
  lost : Bool
  counters : Vector Counter 6
  deriving DecidableEq, Repr

/-! ### The lane entry with every block's per-lane state -/

/-- All state of one lane: the lane entry (R1), the hum state (R31), the detector state (R47), the hold line (R71), the
assembly (R97) and the hiss gate (R106). -/
structure Lane where
  state : LaneState
  config : LaneConfig
  allocation : Nat
  expected : Option SeqNum
  nextPosition : Nat
  timer : Timer
  marks : List MarkEntry
  counters : Vector Counter 16
  hum : LaneHum
  det : Detector
  held : List HeldParcel
  assembly : Assembly
  gate : Gate
  deriving DecidableEq, Repr

end Sys2Proof.Machine
end

