-- ==== Sys2Proof/Machine/Arith.lean ====
section
/-! DEFINITION. The arithmetic of the Conventions: clamping, truncating division, the peak, forward distances between
sequence numbers, saturating counters. -/

namespace Sys2Proof.Machine

/-- A result clamped to the sample range (Conventions, Arithmetic on samples). -/
def clampSample (x : Int) : Sample :=
  if x < -32768 then BitVec.ofInt 16 (-32768)
  else if 32767 < x then BitVec.ofInt 16 32767
  else BitVec.ofInt 16 x

/-- Division truncating toward zero (Conventions, Arithmetic on samples). -/
def truncDiv (a b : Int) : Int := Int.tdiv a b

/-- The largest absolute value among the samples, −32768 counting as 32768 (Conventions, Peak). -/
def peakOf (vs : List Sample) : Nat := vs.foldl (fun p v => max p v.toInt.natAbs) 0

/-- A counter raised by n, staying at its limit (Conventions, Counters). -/
def satBump {w : Nat} (c : BitVec w) (n : Nat) : BitVec w :=
  if c.toNat + n < 2 ^ w then c + BitVec.ofNat w n else BitVec.allOnes w

/-- The forward distance from one sequence number to another, modulo 16,777,216 (Conventions, Sequence numbers). -/
def forwardDistance (a b : SeqNum) : Nat := (b - a).toNat

/-- b is behind a: its forward distance from a is 8,388,608 or more (Conventions, Sequence numbers). -/
def isBehind (a b : SeqNum) : Bool := decide (Config.behindDistance ≤ forwardDistance a b)

/-- m is at or before n: the forward distance from m to n is less than 8,388,608 (R102). -/
def atOrBefore (m n : SeqNum) : Bool := decide (forwardDistance m n < Config.behindDistance)

/-- A quantity saturated to a limit, as a word. -/
def satWord (limit n : Nat) : Word := BitVec.ofNat 16 (min limit n)

/-- The high and the low word of a 32-bit value, high first (R173). -/
def words32 (c : BitVec 32) : List Word := [c.extractLsb' 16 16, c.extractLsb' 0 16]

/-- A flag as a word: 1 for yes (R179). -/
def boolWord (b : Bool) : Word := if b then 1 else 0

/-- A count as a word. -/
def natWord (n : Nat) : Word := BitVec.ofNat 16 n

/-- The union of two sets of causes. -/
def Causes.join (a b : Causes) : Causes where
  detected := a.detected || b.detected
  splice := a.splice || b.splice
  junction := a.junction || b.junction
  conceal := a.conceal || b.conceal

/-- f applied to the last member of a list. -/
def updateLast {α : Type} (f : α → α) : List α → List α
  | [] => []
  | [a] => [f a]
  | a :: b :: rest => a :: updateLast f (b :: rest)

end Sys2Proof.Machine
end

