-- ==== Sys2Proof/Machine/PowerOn.lean ====
section
/-! DEFINITION. The value of each block's state at power-on reset, as its chapter gives it (R171 gathers them). -/

namespace Sys2Proof.Machine

/-- The configuration record at its defaults (R2). -/
def LaneConfig.default : LaneConfig where
  route := .restore
  startOption := .atNextParcel
  lookahead := 256
  parcelLimit := 512
  slack := 256
  onset := 2048
  release := 512
  quietCount := 8
  repairLimit := 128
  mergeDistance := 4
  fallback := .hold
  spliceWidth := 48
  junctionWidth := 16
  humProfile := none
  humGain := 256
  hissEnable := false
  rampTable := 0
  openThreshold := 600
  closeThreshold := 300
  holdCount := 4
  gateNotices := false
  watchEnable := false
  watchAction := .notify
  watchLimitA := 0
  watchLimitB := 0
  starvationTime := 100

/-- A stopped timer with nothing left. -/
def Timer.idle : Timer := { remaining := 0, counting := false }

/-- The empty set of causes. -/
def Causes.none : Causes := { detected := false, splice := false, junction := false, conceal := false }

/-- A lane's hum state when it is OFF (R44, R45). -/
def LaneHum.powerOn : LaneHum := { profile := none, index := 0, restart := false }

/-- A bank at power-on: length 16, every entry 0 (R45). -/
def HumBank.powerOn : HumBank := { length := 16, entries := [] }

/-- A profile at power-on (R45). -/
def HumProfile.powerOn : HumProfile where
  bankA := HumBank.powerOn
  bankB := HumBank.powerOn
  serving := .a
  startPhase := 0
  resync := .none
  swapPending := false

/-- A lane's detector state at power-on (R68). -/
def Detector.powerOn : Detector where
  h1 := 0
  h2 := 0
  valid := 0
  lastEntered := none
  calmCount := 0
  calmStart := none
  forcedRemainder := 0
  forcedCauses := Causes.none
  runs := []

/-- A lane that is OFF with the given configuration record and nothing else kept: the lane at power-on (R28, R45, R68,
R95, R114) and after RESET_PART (R29, R46, R69, R94, R114). -/
def Lane.cleared (c : LaneConfig) : Lane where
  state := .off
  config := c
  allocation := 0
  expected := none
  nextPosition := 0
  timer := Timer.idle
  marks := []
  counters := Vector.replicate 16 0
  hum := LaneHum.powerOn
  det := Detector.powerOn
  held := []
  assembly := .empty
  gate := .opened

/-- A lane at power-on (R28). -/
def Lane.powerOn : Lane := Lane.cleared LaneConfig.default

/-- The repair unit at power-on (R95). -/
def RepairUnit.powerOn : RepairUnit := { queue := [], inProgress := none }

/-- A ramp table at power-on: entry i is 16 × (i + 1) (R110). -/
def rampPowerOn : Vector Nat 16 :=
  #v[16, 32, 48, 64, 80, 96, 112, 128, 144, 160, 176, 192, 208, 224, 240, 256]

/-- A pattern setting at power-on (R130). -/
def PatternSetting.powerOn : PatternSetting := { kind := .shift15, first := 1, second := 0 }

/-- The generator at power-on (R130). -/
def Generator.powerOn : Generator where
  lane := none
  setting := PatternSetting.powerOn
  next := 1
  single := false
  period := 0
  countdown := 0

/-- The checker at power-on (R130). -/
def Checker.powerOn : Checker where
  lane := none
  setting := PatternSetting.powerOn
  state := .search
  wordCount := 0
  errorCount := 0
  wordSaturated := false
  errorSaturated := false

/-- A receiving pair that has heard nothing: out of step (R174). DEDUCED: both links are DOWN at the start (R171); log 4. -/
def Receiver.powerOn : Receiver := { inStep := false, idleRun := 0, errorRun := 0, parcel := none }

/-- The intake port at power-on (R146). -/
def IntakePort.powerOn : IntakePort where
  link := .down
  port := .accepting
  queue := []
  headWaiting := false
  pace := .go
  lastSent := none
  sending := none
  overrunNoticed := false
  drops := 0
  haltLevel := 40
  resumeLevel := 16
  form := .byParcel
  haltOnDamage := false
  counters := Vector.replicate 11 0
  receiver := Receiver.powerOn

/-- The delivery port at power-on (R162). -/
def DeliveryPort.powerOn : DeliveryPort where
  link := .down
  samples := []
  messages := []
  transmission := .none
  form := .byParcel
  lastPace := .go
  pace := .go
  batch := []
  timer := Timer.idle
  batchTime := 20
  commitPending := false
  lossFlag := false
  counters := Vector.replicate 12 0
  replyReserved := false
  receiver := Receiver.powerOn

/-- The control unit at power-on (R171). -/
def ControlUnit.powerOn : ControlUnit where
  queue := []
  lost := false
  counters := Vector.replicate 6 0

end Sys2Proof.Machine
end

