-- ==== Sys2Proof/Machine/State.lean ====
section
/-! DEFINITION. The state of the whole part, the reasons a step could stop, and the state after reset. -/

namespace Sys2Proof.Machine

/-- Why a step faults. The spec gives the part no fault that stops it: every misuse is answered by an outcome code, a
counted discard or a notice. So the type has no constructor and no step faults (safe: nothing is cut short). -/
inductive Fault where
  deriving DecidableEq, Repr

/-- Why a step is refused. -/
inductive Refusal where
  /-- Raised by an arm of exec whose command has no meaning yet; safe. No arm raises it: every row has its meaning. -/
  | notModelled (mnemonic : String)
  deriving DecidableEq, Repr

/-- The state of the part. `pending` is the queue of the commands and events that are waiting, first in, first out
(log 16); every other field is state the spec gives the part. -/
structure State where
  resetLine : Bool
  deliveryReady : Bool
  lanes : Vector Lane 16
  profiles : Vector HumProfile 8
  fullNoticed : Bool
  repair : RepairUnit
  waitList : List LaneId
  ramps : Vector (Vector Nat 16) 4
  generator : Generator
  checker : Checker
  intake : IntakePort
  delivery : DeliveryPort
  control : ControlUnit
  pending : List Instr
  deriving DecidableEq, Repr

/-- The part right after a power-on start (R171): every block at its power-on values, RESET deasserted, nothing
waiting. The level of DELIVERY_READY is the outside's; deasserted here (DESIGN CHOICE, unsafe: log 4). -/
def State.reset : State where
  resetLine := false
  deliveryReady := false
  lanes := Vector.replicate 16 Lane.powerOn
  profiles := Vector.replicate 8 HumProfile.powerOn
  fullNoticed := false
  repair := RepairUnit.powerOn
  waitList := []
  ramps := Vector.replicate 4 rampPowerOn
  generator := Generator.powerOn
  checker := Checker.powerOn
  intake := IntakePort.powerOn
  delivery := DeliveryPort.powerOn
  control := ControlUnit.powerOn
  pending := []

end Sys2Proof.Machine
end

