-- ==== Sys2Proof/Machine/Ops.lean ====
section
/-! DEFINITION. The named operations over the parts of State: reading and updating a lane, counting, and what each block
asks of another (a flush in force, room, free places). -/

namespace Sys2Proof.Machine

/-! ### Counters by name -/

/-- The place of a lane counter in R27's list, from 0. -/
def LaneCounter.place : LaneCounter → Fin 16
  | .parcelsEntered => 0
  | .samplesEntered => 1
  | .marksAccepted => 2
  | .armedDiscards => 3
  | .unclaimed => 4
  | .oversize => 5
  | .order => 6
  | .gaps => 7
  | .missingParcels => 8
  | .markListFull => 9
  | .lateSplices => 10
  | .stalls => 11
  | .runsRepaired => 12
  | .runsUnrepaired => 13
  | .runsMissed => 14
  | .levelHits => 15

/-- The place of an intake counter in R145's list, from 0. -/
def IntakeCounter.place : IntakeCounter → Fin 11
  | .arrived => 0
  | .admitted => 1
  | .damaged => 2
  | .misdirected => 3
  | .droppedHalted => 4
  | .overrun => 5
  | .cut => 6
  | .taken => 7
  | .discards => 8
  | .halts => 9
  | .linkDowns => 10

/-- The place of a delivery counter in R161's list, from 0. -/
def DeliveryCounter.place : DeliveryCounter → Fin 12
  | .samplesSent => 0
  | .marksSent => 1
  | .repliesSent => 2
  | .noticesSent => 3
  | .noticesDiscarded => 4
  | .arrivals => 5
  | .paceReceived => 6
  | .damaged => 7
  | .misdirected => 8
  | .cut => 9
  | .abandoned => 10
  | .linkDowns => 11

/-- The place of a control counter in R172's list, from 0. -/
def ControlCounter.place : ControlCounter → Fin 6
  | .received => 0
  | .admitted => 1
  | .lostFull => 2
  | .lostDamaged => 3
  | .replies => 4
  | .refused => 5

/-- One counter of a list raised by n, saturating. -/
def bumpAt {k : Nat} (cs : Vector Counter k) (i : Fin k) (n : Nat) : Vector Counter k :=
  cs.set i (satBump cs[i] n)

/-- A lane counter of a lane. -/
def Lane.counter (ln : Lane) (c : LaneCounter) : Counter := ln.counters[c.place]

/-- A lane counter raised by n (R27). -/
def Lane.bump (ln : Lane) (c : LaneCounter) (n : Nat) : Lane :=
  { ln with counters := bumpAt ln.counters c.place n }

/-- An intake counter. -/
def IntakePort.counter (p : IntakePort) (c : IntakeCounter) : Counter := p.counters[c.place]

/-- An intake counter raised by one (R145). -/
def IntakePort.bump (p : IntakePort) (c : IntakeCounter) : IntakePort :=
  { p with counters := bumpAt p.counters c.place 1 }

/-- A delivery counter. -/
def DeliveryPort.counter (p : DeliveryPort) (c : DeliveryCounter) : Counter := p.counters[c.place]

/-- A delivery counter raised by one (R161). -/
def DeliveryPort.bump (p : DeliveryPort) (c : DeliveryCounter) : DeliveryPort :=
  { p with counters := bumpAt p.counters c.place 1 }

/-- A control counter. -/
def ControlUnit.counter (u : ControlUnit) (c : ControlCounter) : Counter := u.counters[c.place]

/-- A control counter raised by one (R172). -/
def ControlUnit.bump (u : ControlUnit) (c : ControlCounter) : ControlUnit :=
  { u with counters := bumpAt u.counters c.place 1 }

/-! ### Lanes -/

/-- The entry of one lane (R1: the lane field selects the entry with the same number). -/
def State.lane (s : State) (l : LaneId) : Lane := s.lanes[l]

/-- One lane changed by f, every other lane as it was. -/
def State.modLane (s : State) (l : LaneId) (f : Lane → Lane) : State :=
  { s with lanes := s.lanes.set l (f s.lanes[l]) }

/-- The detector state of one lane changed by f. -/
def State.modDet (s : State) (l : LaneId) (f : Detector → Detector) : State :=
  s.modLane l fun ln => { ln with det := f ln.det }

/-- The hum state of one lane changed by f. -/
def State.modHum (s : State) (l : LaneId) (f : LaneHum → LaneHum) : State :=
  s.modLane l fun ln => { ln with hum := f ln.hum }

/-- A lane counter of one lane raised by n (R27). -/
def State.count (s : State) (l : LaneId) (c : LaneCounter) (n : Nat) : State :=
  s.modLane l fun ln => ln.bump c n

/-- The lane is RUNNING, with or without a stall pending (R5, R31). -/
def LaneState.isRunning : LaneState → Bool
  | .running _ => true
  | .off => false
  | .armed => false
  | .stalled => false
  | .draining _ => false

/-- A flush is in force: the lane is DRAINING or stall pending (R88). -/
def LaneState.isFlushing : LaneState → Bool
  | .running p => p
  | .draining _ => true
  | .off => false
  | .armed => false
  | .stalled => false

/-- The number of samples in the hold line (R71). -/
def Lane.occupancy (ln : Lane) : Nat := (ln.held.map fun p => p.samples.length).sum

/-- The position of the oldest sample not yet departed: the head of the hold line, or the next position when nothing is
held (Conventions, Positions). -/
def Lane.headPosition (ln : Lane) : Nat :=
  match ln.held with
  | [] => ln.nextPosition
  | p :: _ => p.firstPosition + p.departed

/-- How many samples of the lane have entered after position x. -/
def Lane.enteredAfter (ln : Lane) (x : Nat) : Nat := ln.nextPosition - 1 - x

/-- The number of samples collected in the assembly (R97). -/
def Assembly.collected : Assembly → Nat
  | .empty => 0
  | .building b => b.samples.length
  | .complete b _ _ => b.samples.length

/-- The assembly can take a sample: it is not COMPLETE (R75). -/
def Assembly.canTake : Assembly → Bool
  | .empty => true
  | .building _ => true
  | .complete _ _ _ => false

/-- The assembly is EMPTY. -/
def Assembly.isEmpty : Assembly → Bool
  | .empty => true
  | .building _ => false
  | .complete _ _ _ => false

/-- The gain index of a gate (R106). -/
def Gate.index : Gate → Nat
  | .opened => 15
  | .holding _ => 15
  | .closing i => i
  | .closed => 0

/-- The hold count of a gate (R106). -/
def Gate.holdCount : Gate → Nat
  | .opened => 0
  | .holding n => n
  | .closing _ => 0
  | .closed => 0

/-- The route uses the hold line (R2: its allocation is D + P + S and not 0). -/
def Route.usesHoldLine : Route → Bool
  | .restore => true
  | .pass => true
  | .mute => true
  | .generate => true
  | .echo => false
  | .check => false

/-- The allocation C of a lane with this record: D + P + S, or 0 on route ECHO or CHECK (R2). -/
def LaneConfig.allocation (c : LaneConfig) : Nat :=
  if c.route.usesHoldLine then c.lookahead + c.parcelLimit + c.slack else 0

/-- The free places of hold memory: 24,576 less the sum of the allocations (R6). -/
def State.freePlaces (s : State) : Nat :=
  Config.holdPlaces - (s.lanes.toList.map Lane.allocation).sum

/-! ### The intake head -/

/-- The lane a parcel names. -/
def InParcel.lane : InParcel → LaneId
  | .samples l _ _ => l
  | .mark l _ _ _ _ => l

/-- A new offer of the head becomes due if the head names this lane (R140). -/
def State.wake (s : State) (l : LaneId) : State :=
  match s.intake.queue with
  | [] => s
  | p :: _ =>
    if p.lane = l then { s with intake := { s.intake with headWaiting := false } } else s

/-- A new offer of the head becomes due, whatever its lane (R140: a place of the sample queue is still free). -/
def State.wakeAny (s : State) : State :=
  { s with intake := { s.intake with headWaiting := false } }

/-! ### The sample queue -/

/-- The sample queue has a free place (R149). -/
def State.sampleRoom (s : State) : Bool :=
  decide (s.delivery.samples.length < Config.sampleQueueSize)

/-- A parcel joins the tail of the sample queue (R149). -/
def State.pushSample (s : State) (p : OutParcel) : State :=
  { s with delivery := { s.delivery with samples := s.delivery.samples ++ [p] } }

/-- A lane joins the tail of the placement wait list, once at most (R97, R103). -/
def State.joinWait (s : State) (l : LaneId) : State :=
  if s.waitList.contains l then s else { s with waitList := s.waitList ++ [l] }

/-- A lane leaves the placement wait list; the lanes behind it close up (R104, R113). -/
def State.leaveWait (s : State) (l : LaneId) : State :=
  { s with waitList := s.waitList.filter fun m => m != l }

/-! ### Timers -/

/-- The timer stops counting, keeping its remaining time (R25). -/
def Timer.stop (t : Timer) : Timer := { t with counting := false }

/-- The starvation timer is reloaded with the starvation time. It counts only while the lane is RUNNING with no stall
pending, and a time of 0 leaves it not counting (R25). -/
def Lane.reloadTimer (ln : Lane) : Lane :=
  { ln with
    timer :=
      { remaining := ln.config.starvationTime
        counting := decide (ln.state = .running false) && decide (ln.config.starvationTime ≠ 0) } }

/-! ### The shape of a meaning -/

/-- Every meaning ends in a next state. While RESET is asserted the part is held in reset (R171): it receives nothing,
sends nothing and no event of its own is taken, so nothing changes. -/
def whileRunning (f : State → State) (s : State) : Host.Outcome State Fault Refusal :=
  .next (if s.resetLine then s else f s)

end Sys2Proof.Machine
end

