-- ==== Sys2Proof/Machine/Flags.lean ====
section
/-! DEFINITION. The flags of the parcels the part sends: when each is set (R101, R17) and its bit in the header (R176). -/

namespace Sys2Proof.Machine

/-- No flag set. -/
def SampleFlags.none : SampleFlags where
  repaired := false
  substituted := false
  gated := false
  muted := false
  generated := false
  echoed := false
  flushed := false
  resumed := false

/-- The flags of a completed assembly (R101); `gated` says whether the gate scaled it with a gain other than 256. -/
def AssemblyBody.flags (b : AssemblyBody) (gated : Bool) : SampleFlags where
  repaired := b.repairedSeen
  substituted := b.fallbackSeen
  gated := gated
  muted := decide (b.route = .mute)
  generated := decide (b.route = .generate)
  echoed := false
  flushed := b.flushedSeen
  resumed := b.resumed

/-- The flags of an ECHO copy: ECHOED, and RESUMED on the first after a stall (R17, R101). -/
def SampleFlags.echo (resumed : Bool) : SampleFlags := { SampleFlags.none with echoed := true, resumed := resumed }

/-- The value of bit i of a flag. -/
def flagBit (b : Bool) (i : Nat) : Nat := if b then 2 ^ i else 0

/-- The flags field of a SAMPLES parcel on the delivery link, header bits 8..15 as a number 0..255 (R176). -/
def SampleFlags.field (f : SampleFlags) : Nat :=
  flagBit f.repaired 0 + flagBit f.substituted 1 + flagBit f.gated 2 + flagBit f.muted 3 + flagBit f.generated 4
    + flagBit f.echoed 5 + flagBit f.flushed 6 + flagBit f.resumed 7

/-- The causes of a RUN_UNREPAIRED entry as its bits 8..11 (R178). -/
def Causes.field (c : Causes) : Nat :=
  flagBit c.detected 0 + flagBit c.splice 1 + flagBit c.junction 2 + flagBit c.conceal 3

end Sys2Proof.Machine
end

