-- ==== Sys2Proof/WellFormed.lean ====
section
/-! DEFINITION. Which commands are well formed: an arriving parcel begins with a decoded START word, and its first 517
words are kept and no other (R174). Every other operand is in range by its type. -/

namespace Sys2Proof

/-- A received parcel has at least its START word (R174: "a parcel begins at a START symbol"). -/
def RxWord.nonempty (ws : List RxWord) : Bool := !ws.isEmpty

/-- The START symbol of a parcel was decoded: its first word is a word, not a symbol error (R174). -/
def RxWord.startDecoded (ws : List RxWord) : Bool :=
  match ws with
  | .symbolError :: _ => false
  | _ => true

/-- The entry stands for a word whose value is not kept. -/
def RxWord.isUnkept : RxWord → Bool
  | .unkept _ => true
  | .word _ => false
  | .symbolError => false

/-- The entry stands for a word whose value is kept. -/
def RxWord.isKept : RxWord → Bool
  | .word _ => true
  | .unkept _ => false
  | .symbolError => false

/-- Every word up to the 517th is kept, and no word after it (R174). -/
def RxWord.keptOnlyFirst (ws : List RxWord) : Bool :=
  (ws.take Config.keptWords).all (fun x => !x.isUnkept) && (ws.drop Config.keptWords).all (fun x => !x.isKept)

/-- The checks on the words of an arriving parcel. -/
def RxWord.parcelOk (ws : List RxWord) : Bool :=
  RxWord.nonempty ws && RxWord.startDecoded ws && RxWord.keptOnlyFirst ws

/-- A command is well formed when its operands can stand in an event of the part. -/
def Instr.wellFormed : Instr → Bool
  | .configureLane => true
  | .startLane => true
  | .stopLane => true
  | .abortLane => true
  | .readLane => true
  | .clearLaneCounters => true
  | .writeHum => true
  | .readHum => true
  | .setHum => true
  | .commitHum => true
  | .resyncHum => true
  | .writeRamp => true
  | .readRamp => true
  | .setPattern => true
  | .attachGenerator => true
  | .attachChecker => true
  | .latchChecker => true
  | .injectError => true
  | .setIntake => true
  | .resumeIntake => true
  | .readPorts => true
  | .setDelivery => true
  | .flushNotices => true
  | .resetPart => true
  | .badCommand => true
  | .resetAssert => true
  | .powerOnStart => true
  | .intakeArrival ws => RxWord.parcelOk ws
  | .intakeLinkUp => true
  | .intakeLinkDown _ => true
  | .intakePaceEnd => true
  | .offer => true
  | .returnArrival ws => RxWord.parcelOk ws
  | .deliveryLinkUp => true
  | .deliveryLinkDown _ => true
  | .deliveryReadyChange _ => true
  | .transmissionStart => true
  | .transmissionEnd => true
  | .starvationExpiry _ => true
  | .batchExpiry => true
  | .repairTake => true
  | .repairCompletion => true

end Sys2Proof
end

