-- ==== Sys2Proof/Machine/Format.lean ====
section
/-! DEFINITION. The reel link formats: the check word, the header, the layout of every parcel the part sends, and the
tests on the parcels it receives (R134, R154, R173 to R178). -/

namespace Sys2Proof.Machine

/-! ### The check word -/

/-- The register after one fed bit: shifted toward its high end, and combined with 1021h when the bit shifted out
differs from the fed bit (R175). -/
def crcBit (reg : Word) (bit : Bool) : Word :=
  if reg.msb = bit then reg <<< 1 else (reg <<< 1) ^^^ 0x1021

/-- The register after one word, most significant bit first (R175). -/
def crcWord (reg w : Word) : Word := (List.range 16).foldl (fun r i => crcBit r (w.getMsbD i)) reg

/-- The register after a list of words, preset to FFFFh (R175). -/
def crc (ws : List Word) : Word := ws.foldl crcWord 0xFFFF

/-! ### Codes -/

/-- The kind codes of the header (R176). -/
def kindSamples : Nat := 1
def kindMark : Nat := 2
def kindControl : Nat := 3
def kindReply : Nat := 4
def kindNotice : Nat := 5
def kindPace : Nat := 6

/-- The code of a mark kind (R178). -/
def MarkKind.code : MarkKind → Nat
  | .reelStart => 1
  | .reelEnd => 2
  | .splice => 3
  | .speed => 4
  | .cue => 5

/-- The mark kind with a code (R178). -/
def MarkKind.ofCode : Nat → Option MarkKind
  | 1 => some .reelStart
  | 2 => some .reelEnd
  | 3 => some .splice
  | 4 => some .speed
  | 5 => some .cue
  | _ => none

/-- The code of a notice kind (R178). -/
def NoticeKind.code : NoticeKind → Nat
  | .runUnrepaired => 1
  | .runTableFull => 2
  | .sequenceGap => 3
  | .sequenceOrder => 4
  | .oversize => 5
  | .spliceLate => 6
  | .markListFull => 7
  | .level => 8
  | .gateOpened => 9
  | .gateClosed => 10
  | .laneStalled => 11
  | .laneArmed => 12
  | .laneIdle => 13
  | .humSwapped => 14
  | .intakeOverrun => 15
  | .intakeHalted => 16
  | .parcelDamaged => 17
  | .checkLocked => 18
  | .checkLost => 19
  | .checkSaturated => 20

/-- The code of an outcome (R167). -/
def OutcomeCode.code : OutcomeCode → Nat
  | .done => 0
  | .badCommand => 1
  | .badLength => 2
  | .badArgument => 3
  | .laneActive => 4
  | .laneIdle => 5
  | .noSpace => 6
  | .bankBusy => 7
  | .swapPending => 8
  | .inUse => 9
  | .notAttached => 10

/-- The code of a pace state (R178, R179). -/
def Pace.code : Pace → Nat
  | .stop => 0
  | .go => 1

/-- A lane as a code, NONE being 255 (R178, R179). -/
def laneCode : Option LaneId → Nat
  | some l => l.val
  | none => 255

/-! ### Parcels the part sends -/

/-- The words of a parcel: four header words, the payload, the check word (R176). The sequence field is 24 bits over
words 1 and 2; for a REPLY, word 2 is the tag. -/
def parcelWords (kind lane flags : Nat) (seq : SeqNum) (payload : List Word) : List Word :=
  let body :=
    [ natWord (kind * 256 + lane)
    , natWord (flags * 256 + seq.toNat / 65536)
    , seq.extractLsb' 0 16
    , natWord payload.length ] ++ payload
  body ++ [crc body]

/-- The four words of a notice entry (R178). -/
def Notice.words (n : Notice) : List Word :=
  [ natWord (n.kind.code * 256 + laneCode n.lane)
  , natWord (n.causes.field * 256 + n.seq.toNat / 65536)
  , n.seq.extractLsb' 0 16
  , n.detail ]

/-- The words of a parcel of the sample queue (R176, R178). -/
def OutParcel.words : OutParcel → List Word
  | .samples l f seq vs => parcelWords kindSamples l.val f.field seq vs
  | .mark l k seq o v => parcelWords kindMark l.val 0 seq [natWord k.code, natWord o, v]

/-- The words of a parcel of the message queue (R176, R178). -/
def Message.words : Message → List Word
  | .reply tag o lost rs =>
    parcelWords kindReply 0 (flagBit lost 0) (tag.setWidth 24) (natWord o.code :: rs)
  | .notice lost es => parcelWords kindNotice 0 (flagBit lost 0) 0 (es.flatMap Notice.words)

/-- The words of a PACE parcel (R176, R178). -/
def Pace.words (p : Pace) : List Word := parcelWords kindPace 0 0 0 [natWord p.code]

/-- The words of the parcel being sent on the delivery forward pair (R151). -/
def State.deliveryParcel (s : State) : Option (List Word) :=
  match s.delivery.transmission with
  | .none => none
  | .sample => s.delivery.samples.head?.map OutParcel.words
  | .message => s.delivery.messages.head?.map Message.words

/-- The words of the PACE parcel being sent on the intake return pair (R142). -/
def State.intakePaceParcel (s : State) : Option (List Word) := s.intake.sending.map Pace.words

/-- The symbols of a parcel: the first word as START and every later word as DATA (R174). -/
def parcelSymbols : List Word → List Symbol
  | [] => []
  | w :: ws => .start w :: ws.map .data

/-- What a pair the part drives carries (R174): the symbols of the parcel in transmission, or, with none, an IDLE symbol
at every symbol time. -/
def drivenSymbols (parcel : Option (List Word)) : List Symbol :=
  match parcel with
  | none => [.idle]
  | some ws => parcelSymbols ws

/-- The symbols sent on the delivery forward pair: none while RESET is asserted (R171), else those of the parcel in
transmission or IDLE (R174). -/
def State.deliverySymbols (s : State) : List Symbol := if s.resetLine then [] else drivenSymbols s.deliveryParcel

/-- The symbols sent on the intake return pair: none while RESET is asserted (R171), else those of the PACE parcel in
transmission or IDLE (R174). -/
def State.intakeReturnSymbols (s : State) : List Symbol :=
  if s.resetLine then [] else drivenSymbols s.intakePaceParcel

/-! ### Reading a received parcel -/

/-- The words are a parcel as a receiving pair hands it on: a decoded START word first, and the first 517 words kept and
no other (R174). -/
def isParcel (rx : List RxWord) : Bool := RxWord.parcelOk rx

/-- The words of a received parcel that the receiver keeps (R174). -/
def keptWords : List RxWord → List Word
  | [] => []
  | .word w :: rest => w :: keptWords rest
  | .symbolError :: rest => keptWords rest
  | .unkept _ :: rest => keptWords rest

/-- The check register after one more received word. A symbol error is a word of unknown value, after which the register
is unknown: the parcel fails its check word (R174, R175). -/
def intoCheck (reg : Option Word) : RxWord → Option Word
  | .word w => reg.map fun r => crcWord r w
  | .symbolError => none
  | .unkept register => reg.map fun _ => register

/-- The check register after every received word, the check word included (R175). -/
def checkRegister (rx : List RxWord) : Option Word := rx.foldl intoCheck (some 0xFFFF)

/-- The received words with one more DATA word: kept while fewer than 517 words are, else only counted and taken into
the check word (R174). -/
def receiveWord (rx : List RxWord) (w : Word) : List RxWord :=
  rx ++ [if rx.length < Config.keptWords then .word w else .unkept (crcWord ((checkRegister rx).getD 0) w)]

/-- The high and the low byte of a word. -/
def highByte (w : Word) : Nat := w.toNat / 256
def lowByte (w : Word) : Nat := w.toNat % 256

/-- The header fields (R176). A header word that was not received reads as 0; such a parcel fails a later test, as it
has fewer than 5 words (log 18). -/
def hdrKind (ws : List Word) : Nat := highByte (ws.getD 0 0)
def hdrLane (ws : List Word) : Nat := lowByte (ws.getD 0 0)
def hdrSeq (ws : List Word) : SeqNum := BitVec.ofNat 24 (lowByte (ws.getD 1 0) * 65536 + (ws.getD 2 0).toNat)
def hdrTag (ws : List Word) : Word := ws.getD 2 0
def hdrCount (ws : List Word) : Nat := (ws.getD 3 0).toNat

/-- The payload words of a parcel. -/
def payloadOf (ws : List Word) : List Word := (ws.drop 4).take (hdrCount ws)

/-- The number of words received disagrees with the length the header gives; for MARK the count must be 3 and for PACE
1 (R134 test 4, R154 test 4, R176, R177). A parcel of more than 517 words, the longest that any kind allows, fails this
test whatever its header says (R174). -/
def lengthDisagrees (ws : List Word) (received : Nat) : Bool :=
  decide (received ≠ 5 + hdrCount ws) || decide (Config.keptWords < received)
    || (decide (hdrKind ws = kindMark) && decide (hdrCount ws ≠ 3))
    || (decide (hdrKind ws = kindPace) && decide (hdrCount ws ≠ 1))

/-- The kind is one of the six (R134 test 2, R154 test 2). -/
def kindKnown (k : Nat) : Bool := decide (1 ≤ k) && decide (k ≤ 6)

/-- Test 6 of R134 and the parcel it admits: the lane, the SAMPLES count, the mark kind and the offset in range. -/
def intakeFields (ws : List Word) : IntakeVerdict :=
  let pay := payloadOf ws
  if h : hdrLane ws < 16 then
    let l : LaneId := ⟨hdrLane ws, h⟩
    if hdrKind ws = kindSamples then
      if 512 < hdrCount ws then .damaged 5 else .good (.samples l (hdrSeq ws) pay)
    else
      match MarkKind.ofCode (pay.getD 0 0).toNat with
      | some k =>
        if 511 < (pay.getD 1 0).toNat then .damaged 5
        else .good (.mark l k (hdrSeq ws) (pay.getD 1 0).toNat (pay.getD 2 0))
      | none => .damaged 5
  else .damaged 5

/-- The tests on a parcel arriving at the intake port, in the order of R134's table. -/
def intakeVerdict (rx : List RxWord) : IntakeVerdict :=
  let ws := keptWords rx
  if checkRegister rx ≠ some 0 then .damaged 1
  else if !kindKnown (hdrKind ws) then .damaged 2
  else if hdrKind ws ≠ kindSamples ∧ hdrKind ws ≠ kindMark then .misdirected
  else if lengthDisagrees ws rx.length then .damaged 3
  else if hdrKind ws = kindSamples ∧ hdrCount ws = 0 then .damaged 4
  else intakeFields ws

/-- Test 5 of R154 and the parcel it handles. -/
def returnFields (ws : List Word) : ReturnVerdict :=
  let pay := payloadOf ws
  if hdrKind ws = kindPace then
    if pay.getD 0 0 = 0 then .pace .stop
    else if pay.getD 0 0 = 1 then .pace .go
    else .damaged
  else if 257 < hdrCount ws then .damaged
  else .control { tag := hdrTag ws, payload := pay }

/-- The tests on a parcel arriving on the delivery return pair, in the order of R154's table. -/
def returnVerdict (rx : List RxWord) : ReturnVerdict :=
  let ws := keptWords rx
  if checkRegister rx ≠ some 0 then .damaged
  else if !kindKnown (hdrKind ws) then .damaged
  else if hdrKind ws ≠ kindControl ∧ hdrKind ws ≠ kindPace then .misdirected
  else if lengthDisagrees ws rx.length then .damaged
  else returnFields ws

end Sys2Proof.Machine
end

