-- ==== Sys2Proof/Machine/Notices.lean ====
section
/-! DEFINITION. The notice batch of the delivery port (R156 to R158). -/

namespace Sys2Proof.Machine

/-- The message queue has a free place that is not set aside for the REPLY of a take (R150, R159, R166; log 8). -/
def DeliveryPort.messageRoom (d : DeliveryPort) : Bool :=
  decide (d.messages.length + (if d.replyReserved then 1 else 0) < Config.messageQueueSize)

/-- A commit (R158): one NOTICE parcel with every entry of the batch and the LOST flag joins the tail of the message
queue; the batch becomes empty, the timer stops with remaining time 0, commit pending and the loss flag become no. -/
def DeliveryPort.commit (d : DeliveryPort) : DeliveryPort :=
  { d with
    messages := d.messages ++ [.notice d.lossFlag d.batch]
    batch := []
    timer := Timer.idle
    commitPending := false
    lossFlag := false }

/-- The batch is due for commit: it is committed into a free place, or commit pending becomes yes and the timer stops
with remaining time 0 (R157, R158). -/
def DeliveryPort.commitDue (d : DeliveryPort) : DeliveryPort :=
  if d.messageRoom then d.commit
  else { d with commitPending := true, timer := Timer.idle }

/-- An entry joins the tail of the batch; joining an empty batch loads the batch timer (R156, R157). -/
def DeliveryPort.join (d : DeliveryPort) (n : Notice) : DeliveryPort :=
  { d with
    batch := d.batch ++ [n]
    timer := if d.batch.isEmpty then { remaining := d.batchTime, counting := true } else d.timer }

/-- A notice is issued (R156): it joins a batch of fewer than 8 entries, and the eighth entry makes the batch due for
commit; with 8 entries in the batch it is discarded, counted, and the loss flag becomes yes. -/
def DeliveryPort.issue (d : DeliveryPort) (n : Notice) : DeliveryPort :=
  if d.batch.length < Config.batchSize then
    if (d.join n).batch.length = Config.batchSize then (d.join n).commitDue else d.join n
  else
    { d with lossFlag := true }.bump .noticesDiscarded

/-- A notice is issued (R156). -/
def State.issue (s : State) (n : Notice) : State := { s with delivery := s.delivery.issue n }

/-- A notice of a lane, with sequence number and detail. -/
def laneNotice (k : NoticeKind) (l : LaneId) (seq : SeqNum) (detail : Word) : Notice :=
  { kind := k, lane := some l, seq := seq, detail := detail, causes := Causes.none }

/-- A notice of the part that names lane NONE and sequence number 0. -/
def partNotice (k : NoticeKind) (detail : Word) : Notice :=
  { kind := k, lane := none, seq := 0, detail := detail, causes := Causes.none }

end Sys2Proof.Machine
end

