-- ==== Sys2Proof/Machine/Hum.lean ====
section
/-! DEFINITION. The hum canceller: banks, ownership, the swap, phase restarts and the cancellation of samples (R30, R31,
R35 to R42). -/

namespace Sys2Proof.Machine

/-! ### Banks -/

/-- The entry at an index of a bank's list; an unlisted index reads as 0 (R45). -/
def readEntry : List (Nat × Sample) → Nat → Sample
  | [], _ => 0
  | (j, v) :: rest, i => if j = i then v else readEntry rest i

/-- One entry written, keeping the list in its one form: rising indices, no entry 0. -/
def writeEntry : List (Nat × Sample) → Nat → Sample → List (Nat × Sample)
  | [], i, v => if v = 0 then [] else [(i, v)]
  | (j, w) :: rest, i, v =>
    if i < j then (if v = 0 then (j, w) :: rest else (i, v) :: (j, w) :: rest)
    else if i = j then (if v = 0 then rest else (i, v) :: rest)
    else (j, w) :: writeEntry rest i v

/-- A run of entries written from an index onward (R32). -/
def writeEntries : List (Nat × Sample) → Nat → List Sample → List (Nat × Sample)
  | es, _, [] => es
  | es, i, v :: vs => writeEntries (writeEntry es i v) (i + 1) vs

/-- Every index of the list is at least n, the indices rise strictly, and no entry is 0. -/
def entriesFrom (n : Nat) : List (Nat × Sample) → Bool
  | [] => true
  | (j, v) :: rest => decide (n ≤ j) && decide (v ≠ 0) && decide (j < Config.bankEntries) && entriesFrom (j + 1) rest

/-- A bank is well formed: its entries are in the one form, below 1,024, and its length is 16..1024 (R30). -/
def HumBank.wf (b : HumBank) : Bool :=
  entriesFrom 0 b.entries && decide (16 ≤ b.length) && decide (b.length ≤ Config.bankEntries)

/-- An entry of a bank. -/
def HumBank.entry (b : HumBank) (i : Nat) : Sample := readEntry b.entries i

/-- The other bank. -/
def BankId.other : BankId → BankId
  | .a => .b
  | .b => .a

/-- A bank of a profile. -/
def HumProfile.bank (p : HumProfile) : BankId → HumBank
  | .a => p.bankA
  | .b => p.bankB

/-- A bank of a profile replaced. -/
def HumProfile.setBank (p : HumProfile) (which : BankId) (v : HumBank) : HumProfile :=
  match which with
  | .a => { p with bankA := v }
  | .b => { p with bankB := v }

/-- The ownership of a bank (R30). -/
def HumProfile.ownership (p : HumProfile) (which : BankId) : Ownership :=
  if which = p.serving then .serving else if p.swapPending then .ready else .loading

/-- The SERVING bank of a profile. -/
def HumProfile.servingBank (p : HumProfile) : HumBank := p.bank p.serving

/-- The start phase modulo the length of the SERVING bank: where a restart puts the phase index (R40). -/
def HumProfile.restartIndex (p : HumProfile) : Nat := p.startPhase % p.servingBank.length

/-- One profile of the part. -/
def State.profile (s : State) (k : ProfileId) : HumProfile := s.profiles[k]

/-- One profile changed by f. -/
def State.modProfile (s : State) (k : ProfileId) (f : HumProfile → HumProfile) : State :=
  { s with profiles := s.profiles.set k (f s.profiles[k]) }

/-! ### Users and the swap -/

/-- The lane uses profile k: it is RUNNING, with or without a stall pending, and its phase profile is k (R31). -/
def Lane.uses (ln : Lane) (k : ProfileId) : Bool :=
  ln.state.isRunning && decide (ln.hum.profile = some k)

/-- Profile k has a user (R31). -/
def State.hasUser (s : State) (k : ProfileId) : Bool := s.lanes.toList.any fun ln => ln.uses k

/-- A lane's phase index reduced modulo the new serving length, if its phase profile is k (R35, step 4). -/
def Lane.reducePhase (ln : Lane) (k : ProfileId) (len : Nat) : Lane :=
  if ln.hum.profile = some k then { ln with hum := { ln.hum with index := ln.hum.index % len } } else ln

/-- The profile after its swap: the READY bank serves, the other is LOADING, no swap is pending (R35). -/
def HumProfile.swapped (p : HumProfile) : HumProfile :=
  { p with serving := p.serving.other, swapPending := false }

/-- The swap of profile k, naming the given lane and sequence number in its notice (R35). -/
def State.swap (s : State) (k : ProfileId) (lane : Option LaneId) (seq : SeqNum) : State :=
  let p := (s.profile k).swapped
  let s1 := s.modProfile k fun _ => p
  let s2 := { s1 with lanes := s1.lanes.map fun (ln : Lane) => ln.reducePhase k p.servingBank.length }
  s2.issue { kind := .humSwapped, lane := lane, seq := seq, detail := natWord k.val, causes := Causes.none }

/-- The swap of R38: taken at once when profile k has a swap pending and no user is left. -/
def State.swapIfUnused (s : State) (k : ProfileId) : State :=
  if (s.profile k).swapPending && !s.hasUser k then s.swap k none 0 else s

/-- The check of R38 for the profile a lane may have stopped using. -/
def State.userLeft (s : State) (k : Option ProfileId) : State :=
  match k with
  | some p => s.swapIfUnused p
  | none => s

/-! ### Cancellation at entry -/

/-- The start of a parcel's cancellation on route RESTORE (R39): with a profile, the pending swap (R37), then the
restart and the change of phase profile (R40); with NONE, the phase profile becomes NONE. The profile left behind may
take its swap (R38). -/
def State.humBegin (s : State) (l : LaneId) (p : Option ProfileId) (seq : SeqNum) : State :=
  match p with
  | some k =>
    let s1 := if (s.profile k).swapPending then s.swap k (some l) seq else s
    let old := (s1.lane l).hum.profile
    let s2 :=
      if old ≠ some k ∨ (s1.lane l).hum.restart = true then
        s1.modHum l fun _ => { profile := some k, index := (s1.profile k).restartIndex, restart := false }
      else s1
    if old ≠ some k then s2.userLeft old else s2
  | none =>
    let old := (s.lane l).hum.profile
    (s.modHum l fun h => { h with profile := none }).userLeft old

/-- The amount subtracted from a sample: the entry scaled by the hum gain, truncated toward zero, and the result
clamped (R39, step 3). -/
def cancelValue (v t : Sample) (gain : Nat) : Sample :=
  clampSample (v.toInt - truncDiv (t.toInt * gain) 256)

/-- The phase index after one cancelled sample (R39, step 3). -/
def nextIndex (i len : Nat) : Nat := if i + 1 = len then 0 else i + 1

/-- The splice restart of R41, made before the splice sample is cancelled when the profile's resync source is SPLICE. -/
def State.spliceResync (s : State) (l : LaneId) (p : Option ProfileId) : State :=
  match p with
  | some k =>
    if (s.profile k).resync = .splice then
      s.modHum l fun h => { h with index := (s.profile k).restartIndex }
    else s
  | none => s

/-- The cancelled value of a sample of lane l (R39, step 3; no change with profile NONE). -/
def State.cancelled (s : State) (l : LaneId) (p : Option ProfileId) (gain : Nat) (v : Sample) : Sample :=
  match p with
  | some k => cancelValue v ((s.profile k).servingBank.entry (s.lane l).hum.index) gain
  | none => v

/-- The phase index moves on after a cancelled sample (R39, step 3; not with profile NONE). -/
def State.humAdvance (s : State) (l : LaneId) (p : Option ProfileId) : State :=
  match p with
  | some k => s.modHum l fun h => { h with index := nextIndex h.index (s.profile k).servingBank.length }
  | none => s

/-- A REEL_START mark taken on a lane on route RESTORE whose configured profile has resync source REEL_START sets
restart pending (R42). -/
def State.reelStartResync (s : State) (l : LaneId) : State :=
  let c := (s.lane l).config
  match c.humProfile with
  | some k =>
    if c.route = .restore ∧ (s.profile k).resync = .reelStart then s.modHum l fun h => { h with restart := true }
    else s
  | none => s

end Sys2Proof.Machine
end

