-- ==== Sys2Proof/Machine/Pattern.lean ====
section
/-! DEFINITION. The pattern unit: pattern sequences, the generator's words and error insertion, the checker's search,
verification, comparison and counters (R116, R120, R122 to R128). -/

namespace Sys2Proof.Machine

/-- The step of a SHIFT15 word w in 1..32767 (R116). -/
def shiftStep (w : Word) : Word :=
  let n := w.toNat
  let a := n / 16384
  let b := n / 8192 - 2 * a
  let f := if a = b then 0 else 1
  BitVec.ofNat 16 (2 * n - 32768 * a + f)

/-- The word that follows w in the sequence of a setting (R116, R120, R124). -/
def PatternSetting.following (p : PatternSetting) (w : Word) : Word :=
  match p.kind with
  | .shift15 => shiftStep w
  | .constant => p.first
  | .alternate => if w = p.first then p.second else p.first

/-! ### The generator -/

/-- The word handed out is altered: a single error is pending, or the periodic countdown stands at 1 (R122). -/
def Generator.alters (g : Generator) : Bool :=
  g.single || (decide (g.period ≠ 0) && decide (g.countdown = 1))

/-- A word with its lowest bit changed (R122). -/
def alterWord (w : Word) : Word := w ^^^ 1

/-- The word the generator gives (R120, R122). -/
def Generator.given (g : Generator) : Word := if g.alters then alterWord g.next else g.next

/-- The generator after giving a word: the next word follows the UNALTERED word, the single error is spent, and the
countdown falls by one and is loaded again at 0 (R120, R122). -/
def Generator.advance (g : Generator) : Generator :=
  { g with
    next := g.setting.following g.next
    single := g.single && !g.alters
    countdown :=
      if g.period = 0 then g.countdown
      else if g.countdown - 1 = 0 then g.period else g.countdown - 1 }

/-- The sequence restarts: the next word becomes the first word of the sequence (R120). -/
def Generator.restart (g : Generator) : Generator := { g with next := g.setting.first }

/-- The generator follows a lane that enters RUNNING from ARMED (R120, R129). -/
def State.generatorReel (s : State) (l : LaneId) : State :=
  if s.generator.lane = some l then { s with generator := s.generator.restart } else s

/-- The collected value of a GENERATE sample of lane l: the generator's word when it is attached to l, else 0 with no
word taken (R99, R120). -/
def State.generatorValue (s : State) (l : LaneId) : Sample :=
  if s.generator.lane = some l then s.generator.given else 0

/-- The generator after a GENERATE sample of lane l has departed (R99, R120). -/
def State.generatorTaken (s : State) (l : LaneId) : State :=
  if s.generator.lane = some l then { s with generator := s.generator.advance } else s

/-! ### The checker -/

/-- The expected word after w has seeded the checker, if w seeds (R123). -/
def PatternSetting.seed? (p : PatternSetting) (w : Word) : Option Word :=
  match p.kind with
  | .shift15 => if 1 ≤ w.toNat ∧ w.toNat ≤ 32767 then some (shiftStep w) else none
  | .constant => if w = p.first then some p.first else none
  | .alternate => if w = p.first then some p.second else if w = p.second then some p.first else none

/-- The checker's state after a word is tested as a seed in SEARCH (R123). -/
def PatternSetting.seedState (p : PatternSetting) (w : Word) : CheckerState :=
  match p.seed? w with
  | some e => .verify e 0
  | none => .search

/-- The checker is LOCKED. -/
def CheckerState.isLocked : CheckerState → Bool
  | .locked _ _ => true
  | .verify _ _ => false
  | .search => false

/-- The expected word, absent in SEARCH (R115). -/
def CheckerState.expected? : CheckerState → Option Word
  | .search => none
  | .verify e _ => some e
  | .locked e _ => some e

/-- The verify run count: 0 in SEARCH, and kept at 24 in LOCKED (R115, R124). -/
def CheckerState.verifyRun : CheckerState → Nat
  | .search => 0
  | .verify _ n => n
  | .locked _ _ => Config.lockRun

/-- The match history, empty outside LOCKED (R115). -/
def CheckerState.history : CheckerState → List CheckResult
  | .search => []
  | .verify _ _ => []
  | .locked _ h => h

/-- The number of MISMATCH results in a history (R125). -/
def mismatches (h : List CheckResult) : Nat := h.count .mismatched

/-- A notice of the checker names its attached lane (R117, R119, R124 to R126). -/
def Checker.notice (c : Checker) (k : NoticeKind) (seq : SeqNum) (detail : Word) : Notice :=
  { kind := k, lane := c.lane, seq := seq, detail := detail, causes := Causes.none }

/-- The checker with its state changed. -/
def State.setCheckerState (s : State) (st : CheckerState) : State :=
  { s with checker := { s.checker with state := st } }

/-- The checker returns to SEARCH, and leaving LOCKED is reported by CHECK_LOST (R117, R119, R125, R128). -/
def State.checkerSearch (s : State) (seq : SeqNum) (detail : Word) : State :=
  let s1 := s.setCheckerState .search
  if s.checker.state.isLocked then s1.issue (s.checker.notice .checkLost seq detail) else s1

/-- The checker returns to SEARCH because lane l, if it is the attached one, left RUNNING or met a gap (R128). -/
def State.checkerLoss (s : State) (l : LaneId) (seq : SeqNum) (detail : Word) : State :=
  if s.checker.lane = some l then s.checkerSearch seq detail else s

/-- A word is counted in LOCKED; the word count reaching its limit sets its flag and issues CHECK_SATURATED once
(R126). -/
def State.countCheckedWord (s : State) : State :=
  let c := s.checker
  if c.wordCount = BitVec.allOnes 32 then s
  else
    let n := satBump c.wordCount 1
    if n = BitVec.allOnes 32 then
      { s with checker := { c with wordCount := n, wordSaturated := true } }.issue (c.notice .checkSaturated 0 1)
    else { s with checker := { c with wordCount := n } }

/-- A mismatch is counted in LOCKED; the error count reaching its limit sets its flag and issues CHECK_SATURATED once
(R126). -/
def State.countCheckedError (s : State) : State :=
  let c := s.checker
  if c.errorCount = BitVec.allOnes 24 then s
  else
    let n := satBump c.errorCount 1
    if n = BitVec.allOnes 24 then
      { s with checker := { c with errorCount := n, errorSaturated := true } }.issue (c.notice .checkSaturated 0 2)
    else { s with checker := { c with errorCount := n } }

/-- A result joins the tail of the match history, which keeps the most recent 48 (R125). -/
def historyJoin (h : List CheckResult) (r : CheckResult) : List CheckResult :=
  (h ++ [r]).drop (h.length + 1 - Config.historySize)

/-- A word taken in LOCKED with expected word e and history h (R125): the expected word steps whatever w was, the
result joins the history, the word and a mismatch are counted, and the fourth MISMATCH in the history loses lock. -/
def State.checkerCompare (s : State) (seq : SeqNum) (w e : Word) (h : List CheckResult) : State :=
  let r : CheckResult := if w = e then .matched else .mismatched
  let h' := historyJoin h r
  let s1 := s.setCheckerState (.locked (s.checker.setting.following e) h')
  let s2 := s1.countCheckedWord
  let s3 := if r = .mismatched then s2.countCheckedError else s2
  if Config.lossCount ≤ mismatches h' then s3.checkerSearch seq 0 else s3

/-- One word taken by the checker, from the parcel with sequence number seq (R123 to R125). -/
def State.checkerWord (s : State) (seq : SeqNum) (w : Word) : State :=
  match s.checker.state with
  | .search => s.setCheckerState (s.checker.setting.seedState w)
  | .verify e n =>
    if w = e then
      if n + 1 = Config.lockRun then
        (s.setCheckerState (.locked (s.checker.setting.following w) [])).issue
          (s.checker.notice .checkLocked seq 0)
      else s.setCheckerState (.verify (s.checker.setting.following w) (n + 1))
    else s.setCheckerState (s.checker.setting.seedState w)
  | .locked e h => s.checkerCompare seq w e h

/-- The samples of a CHECK parcel are given to the checker in order, if it is attached to the parcel's lane (R17,
R123). -/
def State.checkerParcel (s : State) (l : LaneId) (seq : SeqNum) (ws : List Sample) : State :=
  if s.checker.lane = some l then ws.foldl (fun s w => s.checkerWord seq w) s else s

end Sys2Proof.Machine
end

