-- ==== Sys2Proof/Machine/Detector.lean ====
section
/-! DEFINITION. Damage detection: runs opening, growing, merging, closing, being cut and released; forced spans; the
detector's step on one sample (R48 to R66, R90, R91). -/

namespace Sys2Proof.Machine

/-! ### Runs of a lane -/

/-- The length of a run (R51). -/
def RunRecord.length (r : RunRecord) : Nat := r.last - r.first + 1

/-- The run covers position x: membership follows the records (R71). -/
def RunRecord.covers (r : RunRecord) (x : Nat) : Bool := decide (r.first ≤ x) && decide (x ≤ r.last)

/-- The run is QUEUED or REPAIRING, so its samples do not depart (R75). -/
def RunRecord.blocks (r : RunRecord) : Bool :=
  match r.state with
  | .queued => true
  | .repairing => true
  | .opened => false
  | .repaired => false
  | .unrepaired _ => false

/-- The run is UNREPAIRED. -/
def RunState.isUnrepaired : RunState → Bool
  | .unrepaired _ => true
  | .opened => false
  | .queued => false
  | .repairing => false
  | .repaired => false

/-- The record at the tail of the run list (R54). -/
def Detector.latest? (d : Detector) : Option RunRecord := d.runs.getLast?

/-- The open run: the latest record when it is growing (R47). -/
def Detector.openRun? (d : Detector) : Option RunRecord :=
  match d.latest? with
  | some r => if r.growing then some r else none
  | none => none

/-- The run that position x lies in (R71). -/
def Detector.runAt? (d : Detector) (x : Nat) : Option RunRecord := d.runs.find? fun r => r.covers x

/-- The record with a run number changed by f. -/
def Detector.modRun (d : Detector) (n : Nat) (f : RunRecord → RunRecord) : Detector :=
  { d with runs := d.runs.map fun r => if r.number = n then f r else r }

/-- The calm count becomes 0 and the calm start value absent (R53 to R55, R57). -/
def Detector.resetCalm (d : Detector) : Detector := { d with calmCount := 0, calmStart := none }

/-- The prediction history is cleared: the valid count, h1 and h2 become 0 (R48). -/
def Detector.clearHistory (d : Detector) : Detector := { d with h1 := 0, h2 := 0, valid := 0 }

/-- The run numbers in use over all lanes (R51). -/
def State.usedRuns (s : State) : List Nat :=
  s.lanes.toList.flatMap fun ln => ln.det.runs.map RunRecord.number

/-- The lowest-numbered free record of the run table, if one is free (R51). -/
def State.freeRun? (s : State) : Option Nat :=
  (List.range Config.runRecords).find? fun n => !s.usedRuns.contains n

/-- The record grows to x with these causes; an OPEN run longer than M becomes UNREPAIRED TOO_LONG and stays growing
(R55). -/
def RunRecord.grow (r : RunRecord) (limit x : Nat) (cs : Causes) : RunRecord :=
  let g := { r with last := x, causes := r.causes.join cs }
  if g.state = .opened ∧ limit < g.length then { g with state := .unrepaired .tooLong } else g

/-- The merge test of R54 on the latest record, for a run opening at p. -/
def RunRecord.mergeable (r : RunRecord) (p quiet merge : Nat) : Bool :=
  (decide (r.state = .queued) || (r.state.isUnrepaired && !r.growing)) && decide (p ≤ r.last + quiet + merge)

/-- The record reopened by a merge at p (R54): a QUEUED run becomes OPEN, the run grows again to p, and its right
anchor becomes absent. -/
def RunRecord.reopen (r : RunRecord) (limit p : Nat) (cs : Causes) : RunRecord :=
  let g : RunRecord :=
    { r with
      state := if r.state = .queued then .opened else r.state
      growing := true
      rightAnchor := none }
  g.grow limit p cs

/-- The repair-queue entry of a run is removed, wherever it stands (R81). -/
def State.dropRepairEntry (s : State) (l : LaneId) (n : Nat) : State :=
  { s with
    repair := { s.repair with queue := s.repair.queue.filter fun e => !(decide (e.lane = l) && decide (e.run = n)) } }

/-- A loud or forced sample passes as clean because no record is free (R65). -/
def State.missRun (s : State) (l : LaneId) (seq : SeqNum) : State :=
  let s1 := s.count l .runsMissed 1
  if s1.fullNoticed then s1
  else State.issue { s1 with fullNoticed := true } (laneNotice .runTableFull l seq 0)

/-- A new record for a run that opens at the next position x (R53). Its first-sequence note is the entering parcel's
sequence number (R72). -/
def newRun (d : Detector) (n x : Nat) (cs : Causes) (seq : SeqNum) : RunRecord where
  number := n
  causes := cs
  first := x
  last := x
  growing := true
  state := .opened
  leftAnchor := d.lastEntered
  rightAnchor := none
  firstSeq := seq

/-- A new record is taken from the run table and joins the tail of the run list (R53); with no record free, R65. -/
def State.openNewRun (s : State) (l : LaneId) (seq : SeqNum) (cs : Causes) : State :=
  match s.freeRun? with
  | some n =>
    let x := (s.lane l).nextPosition
    s.modDet l fun d => Detector.resetCalm { d with runs := d.runs ++ [newRun d n x cs seq] }
  | none => s.missRun l seq

/-- A run would open at the next position: the merge test first (R54), else a new record (R53). -/
def State.openRun (s : State) (l : LaneId) (c : LaneConfig) (seq : SeqNum) (cs : Causes) : State :=
  let x := (s.lane l).nextPosition
  match (s.lane l).det.latest? with
  | some r =>
    if r.mergeable x c.quietCount c.mergeDistance then
      (s.dropRepairEntry l r.number).modDet l fun d =>
        (d.modRun r.number fun r => r.reopen c.repairLimit x cs).resetCalm
    else s.openNewRun l seq cs
  | none => s.openNewRun l seq cs

/-- A loud or forced sample at the next position: the open run grows to it (R55), or a run opens at it (R53). -/
def State.joinRun (s : State) (l : LaneId) (c : LaneConfig) (seq : SeqNum) (cs : Causes) : State :=
  match (s.lane l).det.openRun? with
  | some r =>
    let x := (s.lane l).nextPosition
    s.modDet l fun d => (d.modRun r.number fun r => r.grow c.repairLimit x cs).resetCalm
  | none => s.openRun l c seq cs

/-! ### Release -/

/-- The record is released by the hold line: it is not growing and the sample at its last position has departed, that
is, lies before the head of the hold line (R90). -/
def RunRecord.released (r : RunRecord) (head : Nat) : Bool := !r.growing && decide (r.last < head)

/-- The reason code of a RUN_UNREPAIRED detail (R178). -/
def Reason.code : Reason → Nat
  | .tooLong => 1
  | .overtaken => 2
  | .noAnchor => 3
  | .queueFull => 4
  | .late => 5

/-- The RUN_UNREPAIRED notice of a run: its first-sequence note, its reason and its length saturated to 4095, and its
causes as they stand (R91, R178). -/
def RunRecord.notice (r : RunRecord) (l : LaneId) (why : Reason) : Notice where
  kind := .runUnrepaired
  lane := some l
  seq := r.firstSeq
  detail := BitVec.ofNat 16 (why.code * 4096 + min 4095 r.length)
  causes := r.causes

/-- What is counted and reported at the release of a record (R91). -/
def State.reportRelease (s : State) (l : LaneId) (r : RunRecord) : State :=
  match r.state with
  | .repaired => s.count l .runsRepaired 1
  | .unrepaired why => (s.count l .runsUnrepaired 1).issue (r.notice l why)
  | .opened => s
  | .queued => s
  | .repairing => s

/-- The release test for every record of a lane (R90): the released records leave the run list and become free, the
table's full-noticed flag is cleared (R66), and each is counted and reported in list order (R91). -/
def State.releaseRuns (s : State) (l : LaneId) : State :=
  let head := (s.lane l).headPosition
  let gone := (s.lane l).det.runs.filter fun r => r.released head
  if gone.isEmpty then s
  else
    let s1 := s.modDet l fun d => { d with runs := d.runs.filter fun r => !r.released head }
    gone.foldl (fun s r => s.reportRelease l r) { s1 with fullNoticed := false }

/-! ### Closing and cutting -/

/-- What an OPEN run becomes at its normal close (R56), with room in the repair queue or without. -/
def RunRecord.closedState (r : RunRecord) (limit : Nat) (room : Bool) : RunState :=
  if r.state = .opened then
    if limit < r.length then .unrepaired .tooLong
    else if r.leftAnchor = none then .unrepaired .noAnchor
    else if room then .queued
    else .unrepaired .queueFull
  else r.state

/-- The open run closes normally, its right anchor taking the calm start value (R56); an overtaken run whose last
sample has departed is released (R90). -/
def State.closeRun (s : State) (l : LaneId) (c : LaneConfig) (r : RunRecord) (anchor : Option Sample) : State :=
  let room := decide (s.repair.queue.length < Config.repairQueueSize)
  let st := r.closedState c.repairLimit room
  let s1 := s.modDet l fun d =>
    (d.modRun r.number fun r => { r with growing := false, rightAnchor := anchor, state := st }).resetCalm
  let s2 :=
    if r.state = .opened ∧ st = .queued then
      { s1 with repair := { s1.repair with queue := s1.repair.queue ++ [{ lane := l, run := r.number }] } }
    else s1
  s2.releaseRuns l

/-- A calm sample with value v, not forced (R52, step 5). -/
def State.calmSample (s : State) (l : LaneId) (c : LaneConfig) (v : Sample) : State :=
  let d := (s.lane l).det
  match d.openRun? with
  | some r =>
    let start := if d.calmCount = 0 then some v else d.calmStart
    if c.quietCount ≤ d.calmCount + 1 then s.closeRun l c r start
    else s.modDet l fun d => { d with calmCount := d.calmCount + 1, calmStart := start }
  | none => s

/-- A record whose growing is ended by a cut: an OPEN run becomes UNREPAIRED NO_ANCHOR, an UNREPAIRED run keeps its
reason (R57). -/
def RunRecord.cut (r : RunRecord) : RunRecord :=
  if r.growing then
    { r with
      growing := false
      state := if r.state = .opened then .unrepaired .noAnchor else r.state }
  else r

/-- The detector cuts the lane's open run and drops the forced remainder (R57). -/
def Detector.cut (d : Detector) : Detector :=
  { d with
    runs := d.runs.map RunRecord.cut
    calmCount := 0
    calmStart := none
    forcedRemainder := 0
    forcedCauses := Causes.none }

/-! ### The step on one sample -/

/-- The residual of a sample (R48). -/
def Detector.residual (d : Detector) (v : Sample) : Int :=
  if d.valid = 2 then v.toInt - (2 * d.h1.toInt - d.h2.toInt) else 0

/-- The sample is loud: its residual exceeds the onset threshold, or the release threshold while a run is open (R50). -/
def Detector.isLoud (d : Detector) (c : LaneConfig) (v : Sample) : Bool :=
  decide ((if d.openRun?.isSome then c.release else c.onset) < (d.residual v).natAbs)

/-- A forced span of a cause and a length begins at the next sample (R59). -/
def Detector.beginSpan (d : Detector) (cs : Causes) (n : Nat) : Detector :=
  if n = 0 then d
  else
    let d1 := { d with forcedRemainder := max d.forcedRemainder n, forcedCauses := d.forcedCauses.join cs }
    match d1.openRun? with
    | some r => d1.modRun r.number fun r => { r with causes := r.causes.join cs }
    | none => d1

/-- Every forced span that begins at the next sample is applied (R52, step 1). -/
def Detector.beginSpans (d : Detector) (spans : List (Causes × Nat)) : Detector :=
  spans.foldl (fun d x => d.beginSpan x.1 x.2) d

/-- The forced remainder falls by one, and at 0 the forced causes become empty (R52, step 3). -/
def Detector.spendForced (d : Detector) : Detector :=
  { d with
    forcedRemainder := d.forcedRemainder - 1
    forcedCauses := if d.forcedRemainder - 1 = 0 then Causes.none else d.forcedCauses }

/-- The history moves on and the last entered value becomes v (R48, R49; R52, step 6). -/
def Detector.remember (d : Detector) (v : Sample) : Detector :=
  { d with h1 := v, h2 := d.h1, valid := min 2 (d.valid + 1), lastEntered := some v }

/-- The cause DETECTED alone, or no cause. -/
def Causes.detectedIf (loud : Bool) : Causes := { Causes.none with detected := loud }

/-- The detector's step on the sample with cancelled value v at the next position (R52), with the forced spans that
begin there. -/
def State.detect (s : State) (l : LaneId) (c : LaneConfig) (seq : SeqNum) (spans : List (Causes × Nat))
    (v : Sample) : State :=
  let s1 := s.modDet l fun d => d.beginSpans spans
  let d := (s1.lane l).det
  let loud := d.isLoud c v
  let s2 :=
    if 0 < d.forcedRemainder then
      (s1.joinRun l c seq (d.forcedCauses.join (Causes.detectedIf loud))).modDet l Detector.spendForced
    else if loud then s1.joinRun l c seq (Causes.detectedIf true)
    else s1.calmSample l c v
  s2.modDet l fun d => d.remember v

/-! ### Splice marks at an entry -/

/-- The entry is a SPLICE mark with its span pending. -/
def MarkEntry.pendingSplice (m : MarkEntry) : Bool := decide (m.kind = .splice) && m.spanPending

/-- The offsets of the splice samples of a parcel (R60): the mark's offset, or the parcel's last sample when the offset
is not less than the count. -/
def Lane.spliceOffsets (ln : Lane) (seq : SeqNum) (count : Nat) : List Nat :=
  (ln.marks.filter fun m => m.pendingSplice && decide (m.seq = seq)).map fun m => min m.offset (count - 1)

/-- The span-pending flags of the SPLICE entries of a parcel are cleared (R60, R61). -/
def Lane.resolveSplices (ln : Lane) (seq : SeqNum) : Lane :=
  { ln with
    marks := ln.marks.map fun m => if m.pendingSplice && decide (m.seq = seq) then { m with spanPending := false } else m }

/-- A late SPLICE mark is counted and noticed (R61). -/
def State.spliceLate (s : State) (l : LaneId) (seq : SeqNum) : State :=
  (s.count l .lateSplices 1).issue (laneNotice .spliceLate l seq 0)

/-- The span-pending SPLICE entries behind the lane's expectation are late: their flags are cleared, and each is
counted and noticed in list order (R61). -/
def State.lateMarks (s : State) (l : LaneId) : State :=
  match (s.lane l).expected with
  | none => s
  | some e =>
    let late := (s.lane l).marks.filter fun m => m.pendingSplice && isBehind e m.seq
    let s1 := s.modLane l fun ln =>
      { ln with
        marks := ln.marks.map fun m => if m.pendingSplice && isBehind e m.seq then { m with spanPending := false } else m }
    late.foldl (fun s m => s.spliceLate l m.seq) s1

/-! ### The level watch -/

/-- The peak is a hit for limits A and B (R63). -/
def watchHit (a b peak : Nat) : Bool :=
  if a ≤ b then decide (a ≤ peak) && decide (peak ≤ b) else decide (a ≤ peak) || decide (peak ≤ b)

/-- The parcel is a hit of the lane's level watch: the watch is on and the raw peak is a hit (R63). -/
def LaneConfig.watchHits (c : LaneConfig) (ws : List Sample) : Bool :=
  c.watchEnable && watchHit c.watchLimitA c.watchLimitB (peakOf ws)

/-- A hit is counted and noticed (R63). -/
def State.watch (s : State) (l : LaneId) (seq : SeqNum) (ws : List Sample) : State :=
  if (s.lane l).config.watchHits ws then
    (s.count l .levelHits 1).issue (laneNotice .level l seq (satWord 32767 (peakOf ws)))
  else s

end Sys2Proof.Machine
end

