-- ==== Sys2Proof/Machine/Gate.lean ====
section
/-! DEFINITION. The hiss gate and the ramp tables (R106 to R110). -/

namespace Sys2Proof.Machine

/-- The gate after a parcel with peak p, with open threshold o, close threshold c and hold count h (R107). -/
def Gate.after (g : Gate) (o c h p : Nat) : Gate :=
  match g with
  | .opened =>
    if o < p then .opened
    else if p < c then (if h = 1 then .closing 14 else .holding 1)
    else .opened
  | .holding n =>
    if o < p then .opened
    else if p < c then (if h ≤ n + 1 then .closing 14 else .holding (n + 1))
    else .opened
  | .closing i =>
    if o < p then .opened
    else if i - 1 = 0 then .closed
    else .closing (i - 1)
  | .closed => if o < p then .opened else .closed

/-- The gate after a completion of the lane (R107, R108): evaluated for a RESTORE parcel with hiss on, kept for another
route with hiss on, OPEN with hiss off. -/
def Lane.gateAfter (ln : Lane) (b : AssemblyBody) : Gate :=
  if ln.config.hissEnable then
    if b.route = .restore then
      ln.gate.after ln.config.openThreshold ln.config.closeThreshold ln.config.holdCount (peakOf b.samples)
    else ln.gate
  else .opened

/-- The gain at an index of a ramp table (R110). -/
def State.gain (s : State) (t : RampId) (i : Nat) : Nat := (s.ramps[t]).toList.getD i 0

/-- The gain a completed parcel is scaled by: the lane's ramp at the new gain index for a RESTORE parcel with hiss on,
and 256, which changes nothing, otherwise (R108). -/
def State.parcelGain (s : State) (l : LaneId) (b : AssemblyBody) : Nat :=
  let ln := s.lane l
  if ln.config.hissEnable ∧ b.route = .restore then s.gain ln.config.rampTable (ln.gateAfter b).index else 256

/-- A sample scaled by a gain (R108). -/
def scaleSample (g : Nat) (v : Sample) : Sample := BitVec.ofInt 16 (truncDiv (v.toInt * g) 256)

/-- The gate is CLOSING or CLOSED. -/
def Gate.isLow : Gate → Bool
  | .opened => false
  | .holding _ => false
  | .closing _ => true
  | .closed => true

/-- The gate is CLOSING. -/
def Gate.isClosing : Gate → Bool
  | .closing _ => true
  | .opened => false
  | .holding _ => false
  | .closed => false

/-- The notice of a gate change from g to g' (R109): GATE_CLOSED on reaching CLOSED from CLOSING, GATE_OPENED on
reaching OPEN from CLOSING or CLOSED. -/
def gateChange (g g' : Gate) : Option NoticeKind :=
  if g.isClosing && decide (g' = .closed) then some .gateClosed
  else if g.isLow && decide (g' = .opened) then some .gateOpened
  else none

/-- The gate step of a completion (R100, step 1): the gate takes its new state, and with hiss and gate notices on a
change is noticed (R109). -/
def State.gateStep (s : State) (l : LaneId) (b : AssemblyBody) : State :=
  let ln := s.lane l
  let g := ln.gateAfter b
  let s1 := s.modLane l fun ln => { ln with gate := g }
  if ln.config.hissEnable && ln.config.gateNotices then
    match gateChange ln.gate g with
    | some k => s1.issue (laneNotice k l b.seq 0)
    | none => s1
  else s1

end Sys2Proof.Machine
end

