-- ==== Sys2Proof/Machine/Assembly.lean ====
section
/-! DEFINITION. Output assembly: collecting departing samples, completion, leading and trailing marks, and placement in
the sample queue (R98 to R105). -/

namespace Sys2Proof.Machine

/-- A mark entry as the MARK parcel it becomes (R102). -/
def MarkEntry.parcel (m : MarkEntry) (l : LaneId) : OutParcel := .mark l m.kind m.seq m.offset m.value

/-- The delivery SAMPLES parcel of a completed assembly (R101). -/
def AssemblyBody.parcel (b : AssemblyBody) (l : LaneId) (f : SampleFlags) : OutParcel := .samples l f b.seq b.samples

/-- The assembly of one lane set. -/
def State.setAssembly (s : State) (l : LaneId) (a : Assembly) : State :=
  s.modLane l fun ln => { ln with assembly := a }

/-! ### Placement -/

/-- The next part of a COMPLETE assembly is placed in the sample queue: its next leading mark, or else its SAMPLES
parcel, which leaves the assembly EMPTY (R103). -/
def State.placePart (s : State) (l : LaneId) : State :=
  match (s.lane l).assembly with
  | .complete b (m :: ms) f => (((s.pushSample (m.parcel l)).setAssembly l (.complete b ms f))).wake l
  | .complete b [] f => ((s.pushSample (b.parcel l f)).setAssembly l .empty).wake l
  | .empty => s
  | .building _ => s

/-- The number of parts a COMPLETE assembly has still to place. -/
def Assembly.parts : Assembly → Nat
  | .empty => 0
  | .building _ => 0
  | .complete _ ms _ => ms.length + 1

/-- Up to n parts are placed, while the sample queue has a free place (R103). -/
def State.placeParts : Nat → LaneId → State → State
  | 0, _, s => s
  | n + 1, l, s =>
    if !(s.lane l).assembly.canTake && s.sampleRoom then State.placeParts n l (s.placePart l) else s

/-- The parts of a completed assembly are placed as far as free places allow; a lane with a part left joins the
placement wait list (R103). -/
def State.placeAssembly (s : State) (l : LaneId) : State :=
  let s1 := State.placeParts (s.lane l).assembly.parts l s
  if (s1.lane l).assembly.canTake then s1 else s1.joinWait l

/-! ### Trailing marks -/

/-- The entries left in the mark list are trailing marks: a flush is in force, the hold line is empty and the assembly
is EMPTY (R105). -/
def Lane.trailing (ln : Lane) : Bool :=
  ln.state.isFlushing && ln.held.isEmpty && ln.assembly.isEmpty && !ln.marks.isEmpty

/-- The first trailing mark is taken and placed; a SPLICE still span pending is found late (R61, R105). -/
def State.placeTrailing (s : State) (l : LaneId) : State :=
  match (s.lane l).marks with
  | [] => s
  | m :: ms =>
    let s1 := s.modLane l fun ln => { ln with marks := ms }
    let s2 := if m.pendingSplice then s1.spliceLate l m.seq else s1
    s2.pushSample (m.parcel l)

/-- Up to n trailing marks are placed, while the sample queue has a free place (R105). -/
def State.placeTrailings : Nat → LaneId → State → State
  | 0, _, s => s
  | n + 1, l, s =>
    if (s.lane l).trailing && s.sampleRoom then State.placeTrailings n l (s.placeTrailing l) else s

/-- The trailing marks are placed as far as free places allow; a lane with one left joins the placement wait list
(R105). -/
def State.placeTrailingMarks (s : State) (l : LaneId) : State :=
  let s1 := State.placeTrailings (s.lane l).marks.length l s
  if (s1.lane l).trailing then s1.joinWait l else s1

/-! ### Completion -/

/-- The marks of a list that go ahead of a parcel with sequence number n (R102). -/
def leadingMarks (ms : List MarkEntry) (n : SeqNum) : List MarkEntry := ms.filter fun m => atOrBefore m.seq n

/-- The marks of a list that stay for a later completion (R102). -/
def laterMarks (ms : List MarkEntry) (n : SeqNum) : List MarkEntry := ms.filter fun m => !atOrBefore m.seq n

/-- The assembly completes (R100): the gate is evaluated and the samples scaled, the flags are set, the leading marks
are taken, the assembly becomes COMPLETE, and its parts are placed. -/
def State.completeAssembly (s : State) (l : LaneId) (b : AssemblyBody) : State :=
  let g := s.parcelGain l b
  let s1 := s.gateStep l b
  let b' := { b with samples := b.samples.map (scaleSample g) }
  let f := b.flags (decide (g ≠ 256))
  let s2 := s1.modLane l fun ln =>
    { ln with
      marks := laterMarks ln.marks b.seq
      assembly := .complete b' (leadingMarks ln.marks b.seq) f }
  s2.placeAssembly l

/-- The body an assembly starts with when the first sample of a held parcel departs into it (R98). -/
def HeldParcel.newBody (p : HeldParcel) : AssemblyBody where
  seq := p.seq
  count := p.count
  route := p.route
  samples := []
  repairedSeen := false
  fallbackSeen := false
  flushedSeen := false
  resumed := p.resumed

/-- The body a departing sample joins: the one being built, or a new one (R98). -/
def Assembly.bodyFor (a : Assembly) (p : HeldParcel) : AssemblyBody :=
  match a with
  | .building b => b
  | .empty => p.newBody
  | .complete _ _ _ => p.newBody

/-- A sample's value, treatment and flushed marker taken into a body (R98). -/
def AssemblyBody.collect (b : AssemblyBody) (v : Sample) (t : Treatment) (flushed : Bool) : AssemblyBody :=
  { b with
    samples := b.samples ++ [v]
    repairedSeen := b.repairedSeen || decide (t = .repaired)
    fallbackSeen := b.fallbackSeen || decide (t = .fallback)
    flushedSeen := b.flushedSeen || flushed }

/-- The collected value, as the route of the held parcel calls for (R98, R99). -/
def State.collectedValue (s : State) (l : LaneId) (r : Route) (handed : Sample) : Sample :=
  match r with
  | .restore => handed
  | .pass => handed
  | .mute => 0
  | .generate => s.generatorValue l
  | .echo => handed
  | .check => handed

/-- A GENERATE sample takes its word (R99). -/
def State.takeWord (s : State) (l : LaneId) (r : Route) : State :=
  if r = .generate then s.generatorTaken l else s

/-- A departing sample of held parcel p is taken into the lane's assembly, which completes when its last sample has
arrived (R98, R100). -/
def State.collect (s : State) (l : LaneId) (p : HeldParcel) (handed : Sample) (t : Treatment) (flushed : Bool) :
    State :=
  let v := s.collectedValue l p.route handed
  let s1 := s.takeWord l p.route
  let b := ((s1.lane l).assembly.bodyFor p).collect v t flushed
  let s2 := s1.setAssembly l (.building b)
  if b.count ≤ b.samples.length then s2.completeAssembly l b else s2

end Sys2Proof.Machine
end

