-- ==== Sys2Proof/Machine/HoldLine.lean ====
section
/-! DEFINITION. The hold line and the repair unit: room, due samples, departure, overtaking, the flush, the drain and
stall tests, the deadline and the repair of a run (R72 to R90), with the lane's changes of state. -/

namespace Sys2Proof.Machine

/-! ### Changes of a lane's state -/

/-- A lane takes a new state: its starvation timer stops unless it is RUNNING with no stall pending (R25), a waiting
head of the lane is offered again (R140), and a lane that leaves RUNNING stops using its hum profile (R38) and sends
its checker back to SEARCH (R128). -/
def State.changeState (s : State) (l : LaneId) (st : LaneState) : State :=
  let old := s.lane l
  let s1 := (s.modLane l fun ln =>
    { ln with state := st, timer := if st = .running false then ln.timer else ln.timer.stop }).wake l
  if old.state.isRunning && !st.isRunning then (s1.userLeft old.hum.profile).checkerLoss l 0 1 else s1

/-- What a lane keeps when it becomes OFF: its allocation returns to the pool (R6), its hum state is cleared (R44), its
detector state is cleared (R67) and its gate is OPEN (R113). -/
def Lane.clearedOff (ln : Lane) : Lane :=
  { ln with
    allocation := 0
    hum := LaneHum.powerOn
    det := { Detector.powerOn with runs := ln.det.runs }
    gate := .opened }

/-- A lane becomes OFF by STOP_LANE, a drain's end or ABORT_LANE (R6, R38, R44, R67, R113). -/
def State.becomeOff (s : State) (l : LaneId) : State :=
  (s.changeState l .off).modLane l Lane.clearedOff

/-- The lane has no held work: the hold line, the assembly and the mark list are empty (R10). -/
def Lane.workEmpty (ln : Lane) : Bool := ln.held.isEmpty && ln.assembly.isEmpty && ln.marks.isEmpty

/-- The drain test and the stall test (R10, R26): a flushing lane with no held work takes its drain target or becomes
STALLED, with its notice. -/
def State.settle (s : State) (l : LaneId) : State :=
  let ln := s.lane l
  if ln.workEmpty then
    match ln.state with
    | .draining .off => (s.becomeOff l).issue (laneNotice .laneIdle l 0 0)
    | .draining .armed => (s.changeState l .armed).issue (laneNotice .laneArmed l 0 0)
    | .running true =>
      ((s.changeState l .stalled).count l .stalls 1).issue (laneNotice .laneStalled l (ln.expected.getD 0) 0)
    | .running false => s
    | .off => s
    | .armed => s
    | .stalled => s
  else s

/-! ### Departure -/

/-- The position of a held parcel's oldest remaining sample. -/
def HeldParcel.headPosition (p : HeldParcel) : Nat := p.firstPosition + p.departed

/-- A held sample at position x is due (R74): D or more samples have entered after it, or a flush is in force. -/
def Lane.due (ln : Lane) (x : Nat) : Bool :=
  ln.state.isFlushing || decide (ln.config.lookahead ≤ ln.enteredAfter x)

/-- The QUEUED or REPAIRING run that position x lies in, if there is one (R75). -/
def Lane.blockingRun? (ln : Lane) (x : Nat) : Option RunRecord :=
  ln.det.runs.find? fun r => r.covers x && r.blocks

/-- The head sample departs now (R75): it is held, due, in no QUEUED or REPAIRING run, and the assembly can take it. -/
def Lane.canDepart (ln : Lane) : Bool :=
  !ln.held.isEmpty && ln.due ln.headPosition && (ln.blockingRun? ln.headPosition).isNone && ln.assembly.canTake

/-- The overtaking of a growing run by the departing sample at x (R79). -/
def RunRecord.overtake (r : RunRecord) (x : Nat) : RunRecord :=
  { r with
    state := if r.state = .opened then .unrepaired .overtaken else r.state
    last := max r.last x }

/-- The overtaking test of the sample at x (R79): a growing run that begins at or before x is overtaken; when its last
position is raised, the calm count becomes the number of samples entered after x. -/
def Lane.overtake (ln : Lane) (x : Nat) : Lane :=
  match ln.det.openRun? with
  | some r =>
    if r.first ≤ x then
      let d := ln.det.modRun r.number fun r => r.overtake x
      { ln with det := if r.last < x then { d with calmCount := ln.enteredAfter x } else d }
    else ln
  | none => ln

/-- The treatment of a departing sample of a parcel's route that lies in a run or in none (R76). -/
def treatmentOf (route : Route) (run : Option RunRecord) : Treatment :=
  match route, run with
  | .restore, some r => if r.state = .repaired then .repaired else if r.state.isUnrepaired then .fallback else .clean
  | .restore, none => .clean
  | .pass, _ => .clean
  | .mute, _ => .clean
  | .generate, _ => .clean
  | .echo, _ => .clean
  | .check, _ => .clean

/-- The value a fallback gives (R76). -/
def fallbackValue (f : Fallback) (anchor : Option Sample) (held : Sample) : Sample :=
  match f with
  | .zero => 0
  | .hold => anchor.getD 0
  | .keep => held

/-- The value handed to the assembly (R76). -/
def handedValue (t : Treatment) (f : Fallback) (run : Option RunRecord) (held : Sample) : Sample :=
  match t with
  | .clean => held
  | .repaired => held
  | .fallback => fallbackValue f (run.bind RunRecord.leftAnchor) held

/-- The held parcel list after its head sample has departed (R75, R77). -/
def heldAfter (p : HeldParcel) (rest : List HeldParcel) : List HeldParcel :=
  if p.samples.tail.isEmpty then rest
  else { p with samples := p.samples.tail, departed := p.departed + 1 } :: rest

/-- The head sample of a lane departs (R75 to R79): the overtaking test, the treatment and value, the flushed marker
(R89), the assembly, and the release test (R90). -/
def State.departOne (s : State) (l : LaneId) : State :=
  match (s.lane l).held with
  | [] => s
  | p :: rest =>
    let x := p.headPosition
    let s1 := s.modLane l fun ln => ln.overtake x
    let ln := s1.lane l
    let run := ln.det.runAt? x
    let t := treatmentOf p.route run
    let v := handedValue t p.fallback run (p.samples.headD 0)
    let flushed := ln.state.isFlushing && decide (ln.enteredAfter x < ln.config.lookahead)
    let s2 := (s1.modLane l fun ln => { ln with held := heldAfter p rest }).wake l
    (s2.collect l p v t flushed).releaseRuns l

/-- Up to n samples depart, one after another, until a test fails (R75). -/
def State.departUpTo : Nat → LaneId → State → State
  | 0, _, s => s
  | n + 1, l, s => if (s.lane l).canDepart then State.departUpTo n l (s.departOne l) else s

/-- Departure of a lane is taken as far as it can go (R78). On a flushing lane the trailing marks follow (R105) and the
drain or stall test is made (R10, R26; log 10). -/
def State.depart (s : State) (l : LaneId) : State :=
  ((State.departUpTo (s.lane l).occupancy l s).placeTrailingMarks l).settle l

/-! ### The flush -/

/-- What the flush does in the event that begins it, the lane being DRAINING or stall pending already (R88): the cut,
departure as far as it can go, the release test; then the trailing marks (R105) and the drain or stall test. -/
def State.flush (s : State) (l : LaneId) : State :=
  let s1 := s.modDet l Detector.cut
  let s2 := State.departUpTo (s1.lane l).occupancy l s1
  ((s2.releaseRuns l).placeTrailingMarks l).settle l

/-- A drain begins (R10, R88). On a lane that is stall pending the flush is in force already and no second one begins
(R88). -/
def State.beginDrain (s : State) (l : LaneId) (t : DrainTarget) : State :=
  let flushing := (s.lane l).state.isFlushing
  let s1 := s.changeState l (.draining t)
  if flushing then s1.settle l else s1.flush l

/-! ### Room and the deadline -/

/-- The lane has room for a parcel of c samples (R73). -/
def Lane.room (ln : Lane) (c : Nat) : Bool := decide (ln.occupancy + c ≤ ln.allocation)

/-- A record that is not growing any more and UNREPAIRED LATE (R86). -/
def RunRecord.giveUp (r : RunRecord) : RunRecord := { r with state := .unrepaired .late, growing := false }

/-- The repair in progress is abandoned if it is of this run (R85). -/
def State.abandonRepair (s : State) (l : LaneId) (n : Nat) : State :=
  if s.repair.inProgress = some { lane := l, run := n } then
    { s with repair := { s.repair with inProgress := none } }.wake l
  else s

/-- The run whose deadline arises at an offer of c samples (R86): the lane lacks room, its head sample is due and lies
in a QUEUED or REPAIRING run, and its assembly can take a sample. -/
def Lane.deadlineRun? (ln : Lane) (c : Nat) : Option RunRecord :=
  if !ln.room c && !ln.held.isEmpty && ln.due ln.headPosition && ln.assembly.canTake then
    ln.blockingRun? ln.headPosition
  else none

/-- A deadline is taken on a run (R86, steps 1 and 2). -/
def State.takeDeadline (s : State) (l : LaneId) (n : Nat) : State :=
  (((s.dropRepairEntry l n).abandonRepair l n).modDet l fun d => d.modRun n RunRecord.giveUp).depart l

/-- Deadlines are taken on one head run after another while they arise, on at most n runs (R86, step 4). -/
def State.deadlines : Nat → LaneId → Nat → State → State
  | 0, _, _, s => s
  | n + 1, l, c, s =>
    match (s.lane l).deadlineRun? c with
    | some r => State.deadlines n l c (s.takeDeadline l r.number)
    | none => s

/-! ### Repair -/

/-- The value on the straight line at step k of a run of n samples (R83). -/
def interpolate (lv rv : Sample) (n k : Nat) : Sample :=
  BitVec.ofInt 16 (lv.toInt + truncDiv ((rv.toInt - lv.toInt) * k) (n + 1))

/-- Samples from position x on, those of the run rewritten (R83). -/
def repairSamples (r : RunRecord) (lv rv : Sample) : Nat → List Sample → List Sample
  | _, [] => []
  | x, v :: vs =>
    (if r.covers x then interpolate lv rv r.length (x - r.first + 1) else v) :: repairSamples r lv rv (x + 1) vs

/-- A held parcel with the samples of the run rewritten; a parcel on route PASS, MUTE or GENERATE keeps its values
(R83). -/
def HeldParcel.repair (p : HeldParcel) (r : RunRecord) (lv rv : Sample) : HeldParcel :=
  if p.route = .restore then { p with samples := repairSamples r lv rv p.headPosition p.samples } else p

/-- The lane with the repair of a run carried out (R84, steps 1 and 2). A run that reaches the queue has both anchors
(R83). -/
def Lane.repairRun (ln : Lane) (n : Nat) : Lane :=
  match ln.det.runs.find? fun r => decide (r.number = n) with
  | some r =>
    { ln with
      held := ln.held.map fun p => p.repair r (r.leftAnchor.getD 0) (r.rightAnchor.getD 0)
      det := ln.det.modRun n fun r => { r with state := .repaired, growing := false } }
  | none => ln

end Sys2Proof.Machine
end

