-- ==== Sys2Proof/Machine/Pacing.lean ====
section
/-! DEFINITION. Pacing: the intake pace state and its PACE parcels (R138, R141, R142), INTAKE_HOLD, and the delivery
pace (R153). -/

namespace Sys2Proof.Machine

/-- The pace form includes parcels. -/
def PaceForm.hasParcel : PaceForm → Bool
  | .byParcel => true
  | .byLine => false
  | .both => true

/-- The pace form includes the line. -/
def PaceForm.hasLine : PaceForm → Bool
  | .byParcel => false
  | .byLine => true
  | .both => true

/-- The intake pace state set again from the queue count, the port state and the levels (R141). -/
def IntakePort.setPace (p : IntakePort) : IntakePort :=
  { p with
    pace :=
      if p.port = .halted then .stop
      else if p.haltLevel ≤ p.queue.length then .stop
      else if p.queue.length ≤ p.resumeLevel then .go
      else p.pace }

/-- A PACE parcel starts when the form includes parcels, the link is UP, none is in transmission and the pace state
differs from the last sent pace (R142). -/
def IntakePort.startPace (p : IntakePort) : IntakePort :=
  if p.form.hasParcel && decide (p.link = .up) && p.sending.isNone && decide (p.lastSent ≠ some p.pace) then
    { p with sending := some p.pace }
  else p

/-- Overrun noticed becomes no when the queue is below the halt level (R138). -/
def IntakePort.clearOverrun (p : IntakePort) : IntakePort :=
  if p.queue.length < p.haltLevel then { p with overrunNoticed := false } else p

/-- The pace state is set again and given to the reader (R141, R142). -/
def IntakePort.repace (p : IntakePort) : IntakePort := p.setPace.startPace

/-- The level of INTAKE_HOLD (R142, R171): asserted while the part runs, the form includes the line and the pace state
is STOP. -/
def State.intakeHold (s : State) : Bool :=
  !s.resetLine && s.intake.form.hasLine && decide (s.intake.pace = .stop)

/-- The delivery pace that the pace form, the last PACE state and DELIVERY_READY give (R153). -/
def deliveryPaceOf (form : PaceForm) (lastPace : Pace) (ready : Bool) : Pace :=
  if (form.hasParcel && decide (lastPace = .stop)) || (form.hasLine && !ready) then .stop else .go

/-- The delivery pace worked out afresh (R153). -/
def State.freshPace (s : State) : State :=
  { s with
    delivery :=
      { s.delivery with pace := deliveryPaceOf s.delivery.form s.delivery.lastPace s.deliveryReady } }

end Sys2Proof.Machine
end

