-- ==== Sys2Proof/Machine/DeliveryEvents.lean ====
section
/-! DEFINITION. The events of the delivery port: RETURN_ARRIVAL, DELIVERY_LINK_UP, DELIVERY_LINK_DOWN,
DELIVERY_READY_CHANGE, TRANSMISSION_START, TRANSMISSION_END, BATCH_EXPIRY (R104, R151 to R154, R157, R160, R165). -/

namespace Sys2Proof.Machine

/-! ### The return pair -/

/-- A damaged parcel is handed to the control unit: the control-lost flag becomes yes (R154, R165). -/
def ControlUnit.lostDamagedParcel (u : ControlUnit) : ControlUnit :=
  ControlUnit.bump { u with lost := true } .lostDamaged

/-- A well-formed CONTROL parcel is admitted to the control queue, or lost when the queue is full (R165). -/
def ControlUnit.admitted (u : ControlUnit) (p : ControlParcel) : ControlUnit :=
  let u1 := u.bump .received
  if u1.queue.length < Config.controlQueueSize then
    ControlUnit.bump { u1 with queue := u1.queue ++ [p] } .admitted
  else ControlUnit.bump { u1 with lost := true } .lostFull

/-- A well-formed PACE parcel (R153, R154). -/
def State.paceReceived (s : State) (p : Pace) : State :=
  State.freshPace
    { s with delivery := DeliveryPort.bump { s.delivery with lastPace := p } .paceReceived }

/-- What the tests on a return parcel find is done (R154, R165). -/
def State.acceptReturn (s : State) (v : ReturnVerdict) : State :=
  match v with
  | .damaged =>
    { s with delivery := s.delivery.bump .damaged, control := s.control.lostDamagedParcel }
  | .misdirected => { s with delivery := s.delivery.bump .misdirected }
  | .pace p => s.paceReceived p
  | .control p => { s with control := s.control.admitted p }

/-- An arrival on the delivery return pair while the link is UP (R154). -/
def State.returnArrival (s : State) (rx : List RxWord) : State :=
  State.acceptReturn { s with delivery := s.delivery.bump .arrivals } (returnVerdict rx)

/-- RETURN_ARRIVAL. While the link is DOWN nothing arrives (R154, R160). -/
def execReturnArrival (rx : List RxWord) (s : State) : Host.Outcome State Fault Refusal :=
  whileRunning (fun s => if s.delivery.link = .up ∧ isParcel rx = true then s.returnArrival rx else s) s

/-! ### Link and line events -/

/-- DELIVERY_LINK_UP (R160). -/
def execDeliveryLinkUp (s : State) : Host.Outcome State Fault Refusal :=
  whileRunning
    (fun s => if s.delivery.link = .down then { s with delivery := { s.delivery with link := .up } } else s) s

/-- The delivery link goes DOWN (R160): a transmission in progress is abandoned, its parcel staying at the head of its
queue, and a parcel being received is counted as cut. -/
def DeliveryPort.linkDown (d : DeliveryPort) (receiving : Bool) : DeliveryPort :=
  let d1 := DeliveryPort.bump { d with link := .down, transmission := .none } .linkDowns
  let d2 := if d.transmission = .none then d1 else d1.bump .abandoned
  if receiving then d2.bump .cut else d2

/-- DELIVERY_LINK_DOWN (R160). -/
def execDeliveryLinkDown (receiving : Bool) (s : State) : Host.Outcome State Fault Refusal :=
  whileRunning
    (fun s => if s.delivery.link = .up then { s with delivery := s.delivery.linkDown receiving } else s) s

/-- DELIVERY_READY_CHANGE: the level is the new one, and the delivery pace is worked out afresh (R153). The line is the
recorder's, so its level moves while RESET is asserted too; the held part works out nothing (log 6). -/
def execDeliveryReadyChange (level : Bool) (s : State) : Host.Outcome State Fault Refusal :=
  let s1 := { s with deliveryReady := level }
  .next (if s.resetLine then s1 else s1.freshPace)

/-! ### Sending -/

/-- A transmission can start (R151): the link is UP, none is in progress, and a message waits or a sample parcel waits
with the pace at GO. -/
def DeliveryPort.canStart (d : DeliveryPort) : Bool :=
  decide (d.link = .up) && decide (d.transmission = .none)
    && (!d.messages.isEmpty || (!d.samples.isEmpty && decide (d.pace = .go)))

/-- The port chooses its parcel: the head of the message queue, or else the head of the sample queue (R151). -/
def DeliveryPort.start (d : DeliveryPort) : DeliveryPort :=
  if d.canStart then { d with transmission := if d.messages.isEmpty then .sample else .message } else d

/-- TRANSMISSION_START (R151). -/
def execTransmissionStart (s : State) : Host.Outcome State Fault Refusal :=
  whileRunning (fun s => { s with delivery := s.delivery.start }) s

/-- The counter of a message's kind (R161). -/
def Message.counter : Message → DeliveryCounter
  | .reply _ _ _ _ => .repliesSent
  | .notice _ _ => .noticesSent

/-- The counter of a sample-queue parcel's kind (R161). -/
def OutParcel.counter : OutParcel → DeliveryCounter
  | .samples _ _ _ _ => .samplesSent
  | .mark _ _ _ _ _ => .marksSent

/-- The end of a message's transmission (R152): the head leaves, is counted, and a pending commit takes its place. -/
def DeliveryPort.endMessage (d : DeliveryPort) : DeliveryPort :=
  match d.messages with
  | [] => { d with transmission := .none }
  | m :: rest =>
    let d1 := DeliveryPort.bump { d with messages := rest, transmission := .none } m.counter
    if d1.commitPending then d1.commit else d1

/-- The head of the sample queue leaves and is counted (R152, step 1). -/
def DeliveryPort.endSample (d : DeliveryPort) : DeliveryPort :=
  match d.samples with
  | [] => { d with transmission := .none }
  | p :: rest => DeliveryPort.bump { d with samples := rest, transmission := .none } p.counter

/-- The lane still has a part to place: a part of its COMPLETE assembly or a trailing mark (R104, R105). -/
def Lane.hasPart (ln : Lane) : Bool := !ln.assembly.canTake || ln.trailing

/-- The lane's next part is placed in the free place (R104, step 1), and the drain or stall test is made (R103,
R105). -/
def State.placeNextPart (s : State) (l : LaneId) : State :=
  if (s.lane l).assembly.canTake then
    (if (s.lane l).trailing then s.placeTrailing l else s).settle l
  else (s.placePart l).settle l

/-- The lane at the head of the placement wait list is served with the freed place (R104): with no part left it leaves
the list, and its departure is taken as far as it can go. -/
def State.serveWait (s : State) (l : LaneId) : State :=
  let s1 := s.placeNextPart l
  if (s1.lane l).hasPart then s1 else (s1.leaveWait l).depart l

/-- The end of a sample parcel's transmission (R152): the head leaves; the placement wait list is served; a place still
free makes a new offer of a waiting intake head due (R140). -/
def State.endSampleTransmission (s : State) : State :=
  let s1 := { s with delivery := s.delivery.endSample }
  let s2 :=
    match s1.waitList with
    | [] => s1
    | l :: _ => s1.serveWait l
  if s2.sampleRoom then s2.wakeAny else s2

/-- The end of the transmission in progress (R152). -/
def State.endTransmission (s : State) : State :=
  match s.delivery.transmission with
  | .none => s
  | .message => { s with delivery := s.delivery.endMessage }
  | .sample => s.endSampleTransmission

/-- TRANSMISSION_END (R152). -/
def execTransmissionEnd (s : State) : Host.Outcome State Fault Refusal := whileRunning State.endTransmission s

/-! ### The batch timer -/

/-- A timer has run out: it counts and nothing remains (log 2). -/
def Timer.expired (t : Timer) : Bool := t.counting && decide (t.remaining = 0)

/-- BATCH_EXPIRY: the batch timer having reached 0, the batch is due for commit (R157, R158). -/
def execBatchExpiry (s : State) : Host.Outcome State Fault Refusal :=
  whileRunning
    (fun s => if s.delivery.timer.expired then { s with delivery := s.delivery.commitDue } else s) s

end Sys2Proof.Machine
end

