-- ==== Sys2Proof/Machine/Operands.lean ====
section
/-! DEFINITION. The operands of commands: command codes, the codes of fields in arguments and results, range tests, and
the lane configuration record in words (R2, R4, R167, R179, R180). -/

namespace Sys2Proof.Machine

/-! ### Command codes -/

/-- The command codes this guide gives (R4 to R170, one per command). -/
def codeConfigureLane : Word := 0x10
def codeStartLane : Word := 0x11
def codeStopLane : Word := 0x12
def codeAbortLane : Word := 0x13
def codeReadLane : Word := 0x14
def codeClearLaneCounters : Word := 0x15
def codeWriteHum : Word := 0x20
def codeReadHum : Word := 0x21
def codeSetHum : Word := 0x22
def codeCommitHum : Word := 0x23
def codeResyncHum : Word := 0x24
def codeWriteRamp : Word := 0x30
def codeReadRamp : Word := 0x31
def codeSetPattern : Word := 0x40
def codeAttachGenerator : Word := 0x41
def codeAttachChecker : Word := 0x42
def codeLatchChecker : Word := 0x43
def codeInjectError : Word := 0x44
def codeSetIntake : Word := 0x50
def codeResumeIntake : Word := 0x51
def codeReadPorts : Word := 0x52
def codeSetDelivery : Word := 0x53
def codeFlushNotices : Word := 0x54
def codeResetPart : Word := 0x60

/-- Every command code this guide gives; any other, or none, is refused BAD_COMMAND (R167, R177). -/
def knownCodes : List Word :=
  [codeConfigureLane, codeStartLane, codeStopLane, codeAbortLane, codeReadLane, codeClearLaneCounters, codeWriteHum,
    codeReadHum, codeSetHum, codeCommitHum, codeResyncHum, codeWriteRamp]
    ++ [codeReadRamp, codeSetPattern, codeAttachGenerator, codeAttachChecker, codeLatchChecker, codeInjectError,
    codeSetIntake, codeResumeIntake, codeReadPorts, codeSetDelivery, codeFlushNotices, codeResetPart]

/-- The command code of a CONTROL parcel, absent when its payload is empty (R177). -/
def ControlParcel.code? (p : ControlParcel) : Option Word := p.payload.head?

/-- The argument words of a CONTROL parcel (R177, R178). -/
def ControlParcel.args (p : ControlParcel) : List Word := p.payload.tail

/-! ### Range tests -/

/-- An argument in lo..hi, as a number. -/
def argRange (lo hi : Nat) (w : Word) : Option Nat := if lo ≤ w.toNat ∧ w.toNat ≤ hi then some w.toNat else none

/-- A lane number, 0..15. -/
def argLane (w : Word) : Option LaneId := if h : w.toNat < 16 then some ⟨w.toNat, h⟩ else none

/-- A lane number 0..15, or NONE at 255 (R179). -/
def argLaneOrNone (w : Word) : Option (Option LaneId) :=
  if h : w.toNat < 16 then some (some ⟨w.toNat, h⟩) else if w.toNat = 255 then some none else none

/-- A hum profile number, 0..7. -/
def argProfile (w : Word) : Option ProfileId := if h : w.toNat < 8 then some ⟨w.toNat, h⟩ else none

/-- A hum profile 0..7, or NONE at 255 (R179). -/
def argProfileOrNone (w : Word) : Option (Option ProfileId) :=
  if h : w.toNat < 8 then some (some ⟨w.toNat, h⟩) else if w.toNat = 255 then some none else none

/-- A ramp table number, 0..3. -/
def argRamp (w : Word) : Option RampId := if h : w.toNat < 4 then some ⟨w.toNat, h⟩ else none

/-- On or off: 1 or 0 (R179). -/
def argBool (w : Word) : Option Bool :=
  match w.toNat with
  | 0 => some false
  | 1 => some true
  | _ => none

/-- A bank: 0 for A, 1 for B (R32). -/
def argBank (w : Word) : Option BankId :=
  match w.toNat with
  | 0 => some .a
  | 1 => some .b
  | _ => none

/-- A pace form: 1 by parcel, 2 by line, 3 both (R143, R155). -/
def argPaceForm (w : Word) : Option PaceForm :=
  match w.toNat with
  | 1 => some .byParcel
  | 2 => some .byLine
  | 3 => some .both
  | _ => none

/-- A resync source (R179). -/
def argResync (w : Word) : Option ResyncSource :=
  match w.toNat with
  | 0 => some .none
  | 1 => some .command
  | 2 => some .splice
  | 3 => some .reelStart
  | _ => none

/-- A pattern kind (R116). -/
def argPatternKind (w : Word) : Option PatternKind :=
  match w.toNat with
  | 0 => some .shift15
  | 1 => some .constant
  | 2 => some .alternate
  | _ => none

/-- A route (R179). -/
def argRoute (w : Word) : Option Route :=
  match w.toNat with
  | 0 => some .restore
  | 1 => some .pass
  | 2 => some .mute
  | 3 => some .generate
  | 4 => some .echo
  | 5 => some .check
  | _ => none

/-- A start option (R179). -/
def argStartOption (w : Word) : Option StartOption :=
  match w.toNat with
  | 0 => some .atNextParcel
  | 1 => some .atReelStart
  | _ => none

/-- A fallback (R179). -/
def argFallback (w : Word) : Option Fallback :=
  match w.toNat with
  | 0 => some .zero
  | 1 => some .hold
  | 2 => some .keep
  | _ => none

/-- A watch action (R179). -/
def argWatchAction (w : Word) : Option WatchAction :=
  match w.toNat with
  | 0 => some .notify
  | 1 => some .conceal
  | _ => none

/-! ### Codes in results (R179) -/

def Route.code : Route → Nat
  | .restore => 0
  | .pass => 1
  | .mute => 2
  | .generate => 3
  | .echo => 4
  | .check => 5

def StartOption.code : StartOption → Nat
  | .atNextParcel => 0
  | .atReelStart => 1

def Fallback.code : Fallback → Nat
  | .zero => 0
  | .hold => 1
  | .keep => 2

def WatchAction.code : WatchAction → Nat
  | .notify => 0
  | .conceal => 1

def LaneState.code : LaneState → Nat
  | .off => 0
  | .armed => 1
  | .running _ => 2
  | .stalled => 3
  | .draining _ => 4

def LaneState.drainTargetCode : LaneState → Nat
  | .draining .armed => 1
  | .draining .off => 2
  | .off => 0
  | .armed => 0
  | .running _ => 0
  | .stalled => 0

def LaneState.stallPending : LaneState → Bool
  | .running p => p
  | .off => false
  | .armed => false
  | .stalled => false
  | .draining _ => false

def Ownership.code : Ownership → Nat
  | .loading => 0
  | .ready => 1
  | .serving => 2

def ResyncSource.code : ResyncSource → Nat
  | .none => 0
  | .command => 1
  | .splice => 2
  | .reelStart => 3

def CheckerState.code : CheckerState → Nat
  | .search => 0
  | .verify _ _ => 1
  | .locked _ _ => 2

def LinkState.code : LinkState → Nat
  | .down => 0
  | .up => 1

def PortState.code : PortState → Nat
  | .accepting => 0
  | .halted => 1

def PaceForm.code : PaceForm → Nat
  | .byParcel => 1
  | .byLine => 2
  | .both => 3

def profileCode : Option ProfileId → Nat
  | some k => k.val
  | none => 255

/-! ### The configuration record -/

/-- The record as 26 words, one field per word, in the order of R2 (R180). -/
def LaneConfig.words (c : LaneConfig) : List Word :=
  [c.route.code, c.startOption.code, c.lookahead, c.parcelLimit, c.slack, c.onset, c.release, c.quietCount,
      c.repairLimit, c.mergeDistance, c.fallback.code, c.spliceWidth, c.junctionWidth].map natWord
    ++ [natWord (profileCode c.humProfile), natWord c.humGain, boolWord c.hissEnable, natWord c.rampTable.val,
      natWord c.openThreshold, natWord c.closeThreshold, natWord c.holdCount, boolWord c.gateNotices,
      boolWord c.watchEnable, natWord c.watchAction.code, natWord c.watchLimitA, natWord c.watchLimitB,
      natWord c.starvationTime]

/-- The record that 26 words give, if every field is in its range of R2, the release threshold is not above the onset
threshold, and the close threshold is not above the open threshold (R4, test 2). -/
def LaneConfig.ofWords : List Word → Option LaneConfig
  | [w0, w1, w2, w3, w4, w5, w6, w7, w8, w9, w10, w11, w12, w13, w14, w15, w16, w17, w18, w19, w20, w21, w22, w23, w24,
      w25] => do
    let route ← argRoute w0
    let startOption ← argStartOption w1
    let lookahead ← argRange 32 1024 w2
    let parcelLimit ← argRange 1 512 w3
    let slack ← argRange 0 1024 w4
    let onset ← argRange 1 65535 w5
    let release ← argRange 0 onset w6
    let quietCount ← argRange 1 64 w7
    let repairLimit ← argRange 1 512 w8
    let mergeDistance ← argRange 0 64 w9
    let fallback ← argFallback w10
    let spliceWidth ← argRange 0 256 w11
    let junctionWidth ← argRange 0 64 w12
    let humProfile ← argProfileOrNone w13
    let humGain ← argRange 0 256 w14
    let hissEnable ← argBool w15
    let rampTable ← argRamp w16
    let openThreshold ← argRange 0 32768 w17
    let closeThreshold ← argRange 0 openThreshold w18
    let holdCount ← argRange 1 255 w19
    let gateNotices ← argBool w20
    let watchEnable ← argBool w21
    let watchAction ← argWatchAction w22
    let watchLimitA ← argRange 0 32768 w23
    let watchLimitB ← argRange 0 32768 w24
    let starvationTime ← argRange 0 255 w25
    some { route, startOption, lookahead, parcelLimit, slack, onset, release, quietCount, repairLimit, mergeDistance,
           fallback, spliceWidth, junctionWidth, humProfile, humGain, hissEnable, rampTable, openThreshold,
           closeThreshold, holdCount, gateNotices, watchEnable, watchAction, watchLimitA, watchLimitB,
           starvationTime }
  | _ => none

/-- A pattern setting: kind, first word, second word; a SHIFT15 seed must be 1..32767 (R117, test 2). -/
def argPattern (k a b : Word) : Option PatternSetting := do
  let kind ← argPatternKind k
  if kind = .shift15 ∧ (a.toNat = 0 ∨ 32767 < a.toNat) then none
  else some { kind := kind, first := a, second := b }

end Sys2Proof.Machine
end

