-- ==== Sys2Proof/Machine/Take.lean ====
section
/-! DEFINITION. The take of a command: its place, its check, its REPLY (R150, R166 to R168). -/

namespace Sys2Proof.Machine

/-- What a command's rule answers: the outcome, whether it is a refusal (R167), the result words, and the part after the
command's effects. -/
structure CommandResult where
  outcome : OutcomeCode
  refused : Bool
  words : List Word
  after : State

/-- The command passes its checks and is answered DONE with result words. -/
def doneWith (ws : List Word) (s : State) : CommandResult :=
  { outcome := .done, refused := false, words := ws, after := s }

/-- The command is refused with an outcome and changes nothing (R167). -/
def refuse (o : OutcomeCode) (s : State) : CommandResult :=
  { outcome := o, refused := true, words := [], after := s }

/-- The head has left the control queue, and its place in the message queue is set aside for the REPLY (R166 steps 1
and 4, R159; log 8). -/
def State.beginTake (s : State) (rest : List ControlParcel) : State :=
  { s with
    control := { s.control with queue := rest }
    delivery := { s.delivery with replyReserved := true } }

/-- The REPLY is built and joins the tail of the message queue; the control-lost flag becomes no; the replies-queued
counter rises, and the refused counter for a refusal (R166 step 4, R167, R168). -/
def State.queueReply (s : State) (tag : Word) (r : CommandResult) : State :=
  { s with
    delivery :=
      { s.delivery with
        messages := s.delivery.messages ++ [.reply tag r.outcome s.control.lost r.words]
        replyReserved := false }
    control :=
      (fun u : ControlUnit => if r.refused then u.bump .refused else u)
        ({ s.control with lost := false }.bump .replies) }

/-- A take is due: the message queue has a free place (R166); the control queue is not empty by the caller's match. -/
def State.takeDue (s : State) : Bool := decide (s.delivery.messages.length < Config.messageQueueSize)

/-- The take of the CONTROL parcel at the head of the queue, when the head's command is the one asked for and a take is
due (R166); the command's rule is given the argument words. Otherwise no such take can come now and nothing changes
(log 1, log 3). -/
def takeWhen (isHead : ControlParcel → Bool) (rule : List Word → State → CommandResult) (s : State) : State :=
  match s.control.queue with
  | [] => s
  | p :: rest =>
    if isHead p && s.takeDue then
      let r := rule p.args (s.beginTake rest)
      r.after.queueReply p.tag r
    else s

/-- The take of a command with a known code (R166). -/
def takeCommand (code : Word) (rule : List Word → State → CommandResult) (s : State) :
    Host.Outcome State Fault Refusal :=
  whileRunning (takeWhen (fun p => decide (p.code? = some code)) rule) s

/-- A command whose one argument word is a lane number: BAD_LENGTH for another count, BAD_ARGUMENT above 15 (R7, R9,
R11, R12, R13). -/
def laneCommand (rule : LaneId → State → CommandResult) (args : List Word) (s : State) : CommandResult :=
  match args with
  | [w] =>
    match argLane w with
    | some l => rule l s
    | none => refuse .badArgument s
  | _ => refuse .badLength s

/-- A command that takes no argument words: any is refused BAD_LENGTH (R127, R136, R159, R169, R170). -/
def bareCommand (rule : State → CommandResult) (args : List Word) (s : State) : CommandResult :=
  match args with
  | [] => rule s
  | _ :: _ => refuse .badLength s

end Sys2Proof.Machine
end

