-- ==== Sys2Proof/Machine/HumCommands.lean ====
section
/-! DEFINITION. The hum commands: WRITE_HUM, READ_HUM, SET_HUM, COMMIT_HUM, RESYNC_HUM (R32, R33, R34, R36, R43). -/

namespace Sys2Proof.Machine

/-! ### WRITE_HUM -/

/-- Entries of a bank written from an index onward (R32). -/
def HumBank.write (b : HumBank) (i : Nat) (vs : List Sample) : HumBank :=
  { b with entries := writeEntries b.entries i vs }

/-- The rule of WRITE_HUM (R32): at least 4 argument words; profile, bank, first index and run in range; the named bank
LOADING. -/
def writeHum (args : List Word) (s : State) : CommandResult :=
  match args with
  | pw :: bw :: iw :: v :: vs =>
    match argProfile pw, argBank bw with
    | some k, some which =>
      if 1023 < iw.toNat ∨ Config.bankEntries < iw.toNat + (v :: vs).length then refuse .badArgument s
      else if (s.profile k).ownership which ≠ .loading then refuse .bankBusy s
      else doneWith [] (s.modProfile k fun p => p.setBank which ((p.bank which).write iw.toNat (v :: vs)))
    | _, _ => refuse .badArgument s
  | _ => refuse .badLength s

/-- WRITE_HUM, command 20h. -/
def execWriteHum (s : State) : Host.Outcome State Fault Refusal := takeCommand codeWriteHum writeHum s

/-! ### READ_HUM -/

/-- The settings of a profile as READ_HUM's first 7 result words (R33). -/
def HumProfile.settingWords (p : HumProfile) : List Word :=
  [(p.ownership .a).code, (p.ownership .b).code, p.bankA.length, p.bankB.length, p.startPhase, p.resync.code].map natWord
    ++ [boolWord p.swapPending]

/-- A run of entries of a bank, in index order (R33). -/
def HumBank.run (b : HumBank) (i n : Nat) : List Sample := (List.range n).map fun j => b.entry (i + j)

/-- The rule of READ_HUM (R33). -/
def readHum (args : List Word) (s : State) : CommandResult :=
  match args with
  | [pw, bw, iw, nw] =>
    match argProfile pw, argBank bw with
    | some k, some which =>
      if 1023 < iw.toNat ∨ 249 < nw.toNat ∨ Config.bankEntries < iw.toNat + nw.toNat then refuse .badArgument s
      else doneWith ((s.profile k).settingWords ++ ((s.profile k).bank which).run iw.toNat nw.toNat) s
    | _, _ => refuse .badArgument s
  | _ => refuse .badLength s

/-- READ_HUM, command 21h. -/
def execReadHum (s : State) : Host.Outcome State Fault Refusal := takeCommand codeReadHum readHum s

/-! ### SET_HUM -/

/-- A new length of SET_HUM: 0, which keeps the lengths, or 16..1024 (R34). -/
def argHumLength (w : Word) : Option Nat := if w.toNat = 0 then some 0 else argRange 16 1024 w

/-- The length of the bank that is not SERVING set (R34: the LOADING bank, test 3 having passed). -/
def HumProfile.setLoadingLength (p : HumProfile) (n : Nat) : HumProfile :=
  p.setBank p.serving.other { p.bank p.serving.other with length := n }

/-- The rule of SET_HUM (R34). -/
def setHum (args : List Word) (s : State) : CommandResult :=
  match args with
  | [pw, lw, fw, rw] =>
    match argProfile pw, argHumLength lw, argRange 0 1023 fw, argResync rw with
    | some k, some n, some f, some r =>
      if n ≠ 0 ∧ (s.profile k).swapPending = true then refuse .bankBusy s
      else
        doneWith [] (s.modProfile k fun p =>
          { (if n = 0 then p else p.setLoadingLength n) with startPhase := f, resync := r })
    | _, _, _, _ => refuse .badArgument s
  | _ => refuse .badLength s

/-- SET_HUM, command 22h. -/
def execSetHum (s : State) : Host.Outcome State Fault Refusal := takeCommand codeSetHum setHum s

/-! ### COMMIT_HUM -/

/-- The rule of COMMIT_HUM (R36): the LOADING bank becomes READY, and with no user the swap is taken at once. -/
def commitHum (args : List Word) (s : State) : CommandResult :=
  match args with
  | [pw] =>
    match argProfile pw with
    | some k =>
      if (s.profile k).swapPending then refuse .swapPending s
      else
        let s1 := s.modProfile k fun p => { p with swapPending := true }
        if s.hasUser k then doneWith [0] s1 else doneWith [1] (s1.swap k none 0)
    | none => refuse .badArgument s
  | _ => refuse .badLength s

/-- COMMIT_HUM, command 23h. -/
def execCommitHum (s : State) : Host.Outcome State Fault Refusal := takeCommand codeCommitHum commitHum s

/-! ### RESYNC_HUM -/

/-- The lane's configuration record names profile k (R43). -/
def Lane.configuredFor (ln : Lane) (k : ProfileId) : Bool := decide (ln.config.humProfile = some k)

/-- Restart pending set on a lane configured for profile k (R43). -/
def Lane.markRestart (ln : Lane) (k : ProfileId) : Lane :=
  if ln.configuredFor k then { ln with hum := { ln.hum with restart := true } } else ln

/-- The rule of RESYNC_HUM (R43). -/
def resyncHum (args : List Word) (s : State) : CommandResult :=
  match args with
  | [pw] =>
    match argProfile pw with
    | some k =>
      if (s.profile k).resync ≠ .command then refuse .badArgument s
      else
        doneWith [natWord (s.lanes.toList.countP fun ln => ln.configuredFor k)]
          { s with lanes := s.lanes.map fun (ln : Lane) => ln.markRestart k }
    | none => refuse .badArgument s
  | _ => refuse .badLength s

/-- RESYNC_HUM, command 24h. -/
def execResyncHum (s : State) : Host.Outcome State Fault Refusal := takeCommand codeResyncHum resyncHum s

end Sys2Proof.Machine
end

