-- ==== Sys2Proof/Machine/Entry.lean ====
section
/-! DEFINITION. What a lane does with a parcel offered to it: entering RUNNING, the continuity step, the entry on each
route, the answers of R15 and R20, marks (R8, R15 to R24, R61, R70, R86). -/

namespace Sys2Proof.Machine

/-! ### Entering RUNNING -/

/-- A lane entering RUNNING from ARMED also restarts its positions, its last entered value and its gate (R8, R49,
R106). -/
def Lane.freshReel (ln : Lane) : Lane :=
  { ln with nextPosition := 0, det := { ln.det with lastEntered := none }, gate := .opened }

/-- A lane enters RUNNING from ARMED or STALLED (R8, R67): expectation absent, timer reloaded, history cleared; from
ARMED also a fresh reel, and the generator's sequence restarts (R120). -/
def State.enterRunning (s : State) (l : LaneId) : State :=
  let fromArmed := decide ((s.lane l).state = .armed)
  let s1 := (s.changeState l (.running false)).modLane l fun ln =>
    Lane.reloadTimer { ln with expected := none, det := ln.det.clearHistory }
  if fromArmed then (s1.modLane l Lane.freshReel).generatorReel l else s1

/-! ### The continuity step -/

/-- The number of parcels missing before one with sequence number n; 0 when none is (R19). -/
def Lane.missing (ln : Lane) (n : SeqNum) : Nat :=
  match ln.expected with
  | none => 0
  | some e => if isBehind e n then 0 else forwardDistance e n

/-- A gap is counted and noticed (R19). -/
def State.gapFound (s : State) (l : LaneId) (n : SeqNum) (d : Nat) : State :=
  ((s.count l .gaps 1).count l .missingParcels d).issue (laneNotice .sequenceGap l n (satWord 65535 d))

/-- The continuity step (R19): a gap is counted and noticed, and the expectation becomes n + 1. -/
def State.continuity (s : State) (l : LaneId) (n : SeqNum) : State :=
  let d := (s.lane l).missing n
  let s1 := if d = 0 then s else s.gapFound l n d
  s1.modLane l fun ln => { ln with expected := some (n + 1) }

/-- One parcel and its samples are counted as entered (R16, R17). -/
def State.countEntered (s : State) (l : LaneId) (n : Nat) : State :=
  (s.count l .parcelsEntered 1).count l .samplesEntered n

/-! ### Entry on route RESTORE -/

/-- The forced spans that begin at offset i of the entering parcel (R60, R62, R64). -/
def EntryPlan.spansAt (e : EntryPlan) (i : Nat) : List (Causes × Nat) :=
  (if e.conceal ∧ i = 0 then [({ Causes.none with conceal := true }, e.count)] else [])
    ++ (if e.gap ∧ i = 0 then [({ Causes.none with junction := true }, e.config.junctionWidth)] else [])
    ++ (e.spliceOffsets.filter fun o => decide (o = i)).map fun _ =>
        ({ Causes.none with splice := true }, e.config.spliceWidth)

/-- The held parcel the plan's parcel leaves in the hold line, with its first sample (R72). -/
def EntryPlan.heldParcel (e : EntryPlan) (x : Nat) (v : Sample) : HeldParcel where
  seq := e.seq
  firstPosition := x
  count := e.count
  departed := 0
  route := e.config.route
  fallback := e.config.fallback
  resumed := e.resumed
  samples := [v]

/-- A sample is appended to the hold line, the first one beginning the held parcel, and the next position advances
(R16, R72). -/
def Lane.append (ln : Lane) (e : EntryPlan) (i : Nat) (v : Sample) : Lane :=
  { ln with
    held :=
      if i = 0 then ln.held ++ [e.heldParcel ln.nextPosition v]
      else updateLast (fun p => { p with samples := p.samples ++ [v] }) ln.held
    nextPosition := ln.nextPosition + 1 }

/-- One sample of a RESTORE parcel enters: a splice on it restarts the phase, it is hum-cancelled, classified and
appended (R16 step 3, R39, R41, R52, R72). -/
def State.enterSample (s : State) (l : LaneId) (e : EntryPlan) (i : Nat) (raw : Sample) : State :=
  let p := e.config.humProfile
  let s1 := if e.spliceOffsets.contains i then s.spliceResync l p else s
  let v := s1.cancelled l p e.config.humGain raw
  let s2 := s1.humAdvance l p
  (s2.detect l e.config e.seq (e.spansAt i) v).modLane l fun ln => ln.append e i v

/-- The samples of a RESTORE parcel enter in order, the first of the list at offset i. -/
def State.enterSamples : List Sample → Nat → LaneId → EntryPlan → State → State
  | [], _, _, _, s => s
  | v :: vs, i, l, e, s => State.enterSamples vs (i + 1) l e (s.enterSample l e i v)

/-- What the entry of a parcel on route RESTORE finds before its samples enter (R16 steps 1 and 2). -/
def Lane.entryPlan (ln : Lane) (seq : SeqNum) (ws : List Sample) (resumed : Bool) : EntryPlan where
  config := ln.config
  seq := seq
  count := ws.length
  resumed := resumed
  spliceOffsets := ln.spliceOffsets seq ws.length
  conceal := ln.config.watchHits ws && decide (ln.config.watchAction = .conceal)
  gap := decide (ln.missing seq ≠ 0)

/-- The steps of a RESTORE entry before its first sample is cancelled, in R16's order: the level watch (R63), the splice
marks of the parcel (R60), the continuity step (R19), the cleared history of a gap (R62), late marks (R61), and the
start of cancellation (R39). -/
def State.prepareRestore (s : State) (l : LaneId) (e : EntryPlan) (ws : List Sample) : State :=
  let s1 := (s.watch l e.seq ws).modLane l fun ln => ln.resolveSplices e.seq
  let s2 := s1.continuity l e.seq
  let s3 := if e.gap then s2.modDet l Detector.clearHistory else s2
  (s3.lateMarks l).humBegin l e.config.humProfile e.seq

/-- A parcel enters on route RESTORE (R16), and departure follows (R78). -/
def State.enterRestore (s : State) (l : LaneId) (seq : SeqNum) (ws : List Sample) (resumed : Bool) : State :=
  let e := (s.lane l).entryPlan seq ws resumed
  let s1 := State.enterSamples ws 0 l e (s.prepareRestore l e ws)
  (s1.countEntered l ws.length).depart l

/-! ### Entry on routes PASS, MUTE and GENERATE -/

/-- The detector at an entry on route PASS, MUTE or GENERATE (R70): the open run is cut, the history cleared, and the
last entered value is the parcel's last sample as it entered. -/
def Detector.plainEntry (d : Detector) (ws : List Sample) : Detector :=
  { d.cut.clearHistory with lastEntered := ws.getLast? }

/-- A whole parcel joins the tail of the hold line unchanged (R16, R72). -/
def Lane.appendParcel (ln : Lane) (seq : SeqNum) (ws : List Sample) (resumed : Bool) : Lane :=
  { ln with
    held := ln.held ++
      [{ seq := seq, firstPosition := ln.nextPosition, count := ws.length, departed := 0, route := ln.config.route
         fallback := ln.config.fallback, resumed := resumed, samples := ws }]
    nextPosition := ln.nextPosition + ws.length }

/-- A parcel enters on route PASS, MUTE or GENERATE (R16, R39, R61, R63, R70), and departure follows (R78). The order of
the steps' notices is log 9. -/
def State.enterPlain (s : State) (l : LaneId) (seq : SeqNum) (ws : List Sample) (resumed : Bool) : State :=
  let s1 := (s.watch l seq ws).continuity l seq
  let s2 := (s1.modLane l fun ln => ln.resolveSplices seq).lateMarks l
  let s3 := (s2.modDet l fun d => d.plainEntry ws).releaseRuns l
  let s4 := (s3.humBegin l none seq).modLane l fun ln => ln.appendParcel seq ws resumed
  (s4.countEntered l ws.length).depart l

/-! ### ECHO and CHECK lanes -/

/-- The positions of a lane advance by a parcel that does not enter a hold line (R17). -/
def Lane.advance (ln : Lane) (n : Nat) : Lane := { ln with nextPosition := ln.nextPosition + n }

/-- A parcel taken by an ECHO lane is copied whole into the sample queue (R17). -/
def State.takeEcho (s : State) (l : LaneId) (seq : SeqNum) (ws : List Sample) (resumed : Bool) : State :=
  let s1 := ((s.continuity l seq).modLane l fun ln => ln.advance ws.length).countEntered l ws.length
  s1.pushSample (.samples l (SampleFlags.echo resumed) seq ws)

/-- A parcel taken by a CHECK lane is given to the checker; a gap first returns the checker to SEARCH (R17, R128). -/
def State.takeCheck (s : State) (l : LaneId) (seq : SeqNum) (ws : List Sample) : State :=
  let gap := decide ((s.lane l).missing seq ≠ 0)
  let s1 := ((s.continuity l seq).modLane l fun ln => ln.advance ws.length).countEntered l ws.length
  let s2 := if gap then s1.checkerLoss l seq 2 else s1
  s2.checkerParcel l seq ws

/-- A parcel is taken by its lane, as the route in force calls for (R16, R17). -/
def State.takeParcel (s : State) (l : LaneId) (seq : SeqNum) (ws : List Sample) (resumed : Bool) : State :=
  match (s.lane l).config.route with
  | .restore => s.enterRestore l seq ws resumed
  | .pass => s.enterPlain l seq ws resumed
  | .mute => s.enterPlain l seq ws resumed
  | .generate => s.enterPlain l seq ws resumed
  | .echo => s.takeEcho l seq ws resumed
  | .check => s.takeCheck l seq ws

/-! ### The answer to a SAMPLES parcel -/

/-- A parcel fails the oversize test: it is counted and noticed (R18). -/
def State.oversize (s : State) (l : LaneId) (seq : SeqNum) (n : Nat) : State :=
  (s.count l .oversize 1).issue (laneNotice .oversize l seq (natWord n))

/-- A parcel fails the order test: it is counted and noticed (R19). -/
def State.outOfOrder (s : State) (l : LaneId) (seq : SeqNum) : State :=
  (s.count l .order 1).issue (laneNotice .sequenceOrder l seq 0)

/-- The parcel is behind the lane's expectation (R19, order test). -/
def Lane.behind (ln : Lane) (n : SeqNum) : Bool :=
  match ln.expected with
  | none => false
  | some e => isBehind e n

/-- The answer of an ARMED (AT_NEXT_PARCEL) or STALLED lane (R15): the oversize test, the wait of an ECHO lane for a
place, else the lane enters RUNNING and takes the parcel. -/
def State.startWith (s : State) (l : LaneId) (seq : SeqNum) (ws : List Sample) (resumed : Bool) : Answer × State :=
  let c := (s.lane l).config
  if c.parcelLimit < ws.length then (.discard, s.oversize l seq ws.length)
  else if c.route = .echo ∧ s.sampleRoom = false then (.wait, s)
  else (.take, (s.enterRunning l).takeParcel l seq ws resumed)

/-- The answer of a RUNNING lane to a parcel that has passed its tests (R15 to R17, R73, R86): an ECHO lane needs a
place of the sample queue, a CHECK lane nothing, another lane room, which a deadline may make. -/
def State.takeOrWait (s : State) (l : LaneId) (seq : SeqNum) (ws : List Sample) : Answer × State :=
  match (s.lane l).config.route with
  | .check => (.take, s.takeParcel l seq ws false)
  | .echo => if s.sampleRoom then (.take, s.takeParcel l seq ws false) else (.wait, s)
  | .restore | .pass | .mute | .generate =>
    let s1 := State.deadlines (s.lane l).det.runs.length l ws.length s
    if (s1.lane l).room ws.length then (.take, s1.takeParcel l seq ws false) else (.wait, s1)

/-- The answer of a RUNNING lane with no stall pending: the oversize test, then the order test (R15, R18, R19). -/
def State.answerRunning (s : State) (l : LaneId) (seq : SeqNum) (ws : List Sample) : Answer × State :=
  let ln := s.lane l
  if ln.config.parcelLimit < ws.length then (.discard, s.oversize l seq ws.length)
  else if ln.behind seq then (.discard, s.outOfOrder l seq)
  else s.takeOrWait l seq ws

/-- The lane's answer to a SAMPLES parcel (R15). -/
def State.answerSamples (s : State) (l : LaneId) (seq : SeqNum) (ws : List Sample) : Answer × State :=
  match (s.lane l).state with
  | .off => (.discard, s.count l .unclaimed 1)
  | .armed =>
    if (s.lane l).config.startOption = .atReelStart then (.discard, s.count l .armedDiscards 1)
    else s.startWith l seq ws false
  | .running false => s.answerRunning l seq ws
  | .running true => (.wait, s)
  | .stalled => s.startWith l seq ws true
  | .draining .off => (.discard, s.count l .unclaimed 1)
  | .draining .armed => (.wait, s)

/-! ### Marks -/

/-- The entry a mark leaves in the mark list, its span pending for a SPLICE on route RESTORE (R21). -/
def markEntry (k : MarkKind) (seq : SeqNum) (o : Nat) (v : Word) (r : Route) : MarkEntry where
  kind := k
  seq := seq
  offset := o
  value := v
  spanPending := decide (k = .splice) && decide (r = .restore)

/-- A mark is placed at the tail of the mark list; a SPLICE whose parcel has passed is late at once (R21, R61). -/
def State.placeMark (s : State) (l : LaneId) (m : MarkEntry) : State :=
  let late := m.pendingSplice && (s.lane l).behind m.seq
  let m' := if late then { m with spanPending := false } else m
  let s1 := (s.modLane l fun ln => { ln with marks := ln.marks ++ [m'] }).count l .marksAccepted 1
  if late then s1.spliceLate l m.seq else s1

/-- A mark offered to a full mark list is discarded, counted and noticed (R21). -/
def State.loseMark (s : State) (l : LaneId) (m : MarkEntry) : State :=
  (s.count l .markListFull 1).issue (laneNotice .markListFull l m.seq (natWord m.kind.code))

/-- A mark for the mark list: placed, or discarded when the list holds 8 entries (R21; the answer is log 11). -/
def State.offerMark (s : State) (l : LaneId) (m : MarkEntry) : Answer × State :=
  if (s.lane l).marks.length < Config.markListSize then (.take, s.placeMark l m) else (.discard, s.loseMark l m)

/-- A mark forwarded directly: a MARK parcel with its fields unchanged joins the sample queue, and it is counted as
accepted (R20). -/
def State.forwardMark (s : State) (l : LaneId) (m : MarkEntry) : State :=
  (s.pushSample (m.parcel l)).count l .marksAccepted 1

/-- What a mark kind does to a RUNNING lane once the mark is placed or forwarded: REEL_START may set restart pending
(R42), REEL_END begins a drain toward ARMED (R23). -/
def State.reelEvent (s : State) (l : LaneId) (k : MarkKind) : State :=
  match k with
  | .reelStart => s.reelStartResync l
  | .reelEnd => s.beginDrain l .armed
  | .splice => s
  | .speed => s
  | .cue => s

/-- A RUNNING lane with no stall pending takes a mark (R20, R21, R23): placed on a route with a hold line, forwarded on
route ECHO or CHECK, which waits for a place. -/
def State.markRunning (s : State) (l : LaneId) (m : MarkEntry) : Answer × State :=
  if (s.lane l).config.route.usesHoldLine then
    ((s.offerMark l m).1, (s.offerMark l m).2.reelEvent l m.kind)
  else if s.sampleRoom then (.take, (s.forwardMark l m).reelEvent l m.kind)
  else (.wait, s)

/-- A REEL_START mark starts an ARMED lane (R22); on route ECHO or CHECK it waits for a place (R20). -/
def State.markArmed (s : State) (l : LaneId) (m : MarkEntry) : Answer × State :=
  if m.kind = .reelStart then
    if (s.lane l).config.route.usesHoldLine || s.sampleRoom then (s.enterRunning l).markRunning l m else (.wait, s)
  else (.discard, s.count l .armedDiscards 1)

/-- A mark offered to a STALLED lane is forwarded directly (R20, R23, R24): a SPLICE is late, a REEL_END makes the lane
ARMED. -/
def State.markStalled (s : State) (l : LaneId) (m : MarkEntry) : Answer × State :=
  if s.sampleRoom then
    let s1 := s.forwardMark l m
    match m.kind with
    | .reelStart => (.take, s1)
    | .reelEnd => (.take, (s1.changeState l .armed).issue (laneNotice .laneArmed l 0 0))
    | .splice => (.take, s1.spliceLate l m.seq)
    | .speed => (.take, s1)
    | .cue => (.take, s1)
  else (.wait, s)

/-- The lane's answer to a MARK parcel (R20). -/
def State.answerMark (s : State) (l : LaneId) (m : MarkEntry) : Answer × State :=
  match (s.lane l).state with
  | .off => (.discard, s.count l .unclaimed 1)
  | .armed => s.markArmed l m
  | .running false => s.markRunning l m
  | .running true => (.wait, s)
  | .stalled => s.markStalled l m
  | .draining .off => (.discard, s.count l .unclaimed 1)
  | .draining .armed => (.wait, s)

/-- The lane's answer to an offered parcel (R14). -/
def State.answer (s : State) (p : InParcel) : Answer × State :=
  match p with
  | .samples l seq ws => s.answerSamples l seq ws
  | .mark l k seq o v => s.answerMark l (markEntry k seq o v (s.lane l).config.route)

end Sys2Proof.Machine
end

