-- ==== Sys2Proof/Machine/IntakeEvents.lean ====
section
/-! DEFINITION. The events of the intake port: INTAKE_ARRIVAL, INTAKE_LINK_UP, INTAKE_LINK_DOWN, INTAKE_PACE_END, OFFER
(R133 to R144). -/

namespace Sys2Proof.Machine

/-! ### Arrival -/

/-- The port becomes HALTED (R135). -/
def State.haltIntake (s : State) : State :=
  let s1 := { s with intake := { s.intake with port := .halted, drops := 0 }.bump .halts }
  let s2 := s1.issue (partNotice .intakeHalted 0)
  { s2 with intake := s2.intake.repace }

/-- A damaged parcel (R134): counted, noticed with the detail of the failed test, and with halt on damage on the port
becomes HALTED (R135). -/
def State.damagedArrival (s : State) (detail : Nat) : State :=
  let s1 := State.issue { s with intake := s.intake.bump .damaged } (partNotice .parcelDamaged (natWord detail))
  if s1.intake.haltOnDamage then s1.haltIntake else s1

/-- The starvation timer of a SAMPLES parcel's lane is reloaded (R25, R137). -/
def State.reloadFor (s : State) (p : InParcel) : State :=
  match p with
  | .samples l _ _ => s.modLane l Lane.reloadTimer
  | .mark _ _ _ _ _ => s

/-- A parcel joins the tail of the intake queue; joining an empty queue it is the head, and head waiting is no (R137). -/
def IntakePort.admitted (p : IntakePort) (x : InParcel) : IntakePort :=
  IntakePort.repace
    (IntakePort.bump
      { p with
        queue := p.queue ++ [x]
        headWaiting := if p.queue.isEmpty then false else p.headWaiting } .admitted)

/-- A well-formed parcel is admitted (R137). -/
def State.admitParcel (s : State) (p : InParcel) : State :=
  State.reloadFor { s with intake := s.intake.admitted p } p

/-- The sequence number a parcel names. -/
def InParcel.seq : InParcel → SeqNum
  | .samples _ n _ => n
  | .mark _ _ n _ _ => n

/-- A well-formed parcel meets a full intake queue: it is dropped and counted, and the first such drop is noticed (R137,
R138). -/
def State.overrunDrop (s : State) (p : InParcel) : State :=
  let s1 := { s with intake := s.intake.bump .overrun }
  if s1.intake.overrunNoticed then s1
  else
    State.issue { s1 with intake := { s1.intake with overrunNoticed := true } }
      (laneNotice .intakeOverrun p.lane p.seq 0)

/-- A parcel arrives while the port is HALTED: dropped untested (R135). -/
def IntakePort.dropHalted (p : IntakePort) : IntakePort :=
  IntakePort.bump { p with drops := min 65535 (p.drops + 1) } .droppedHalted

/-- A parcel arrives while the port is ACCEPTING: what its tests find is done (R134, R137). -/
def State.acceptArrival (s : State) (v : IntakeVerdict) : State :=
  match v with
  | .damaged d => s.damagedArrival d
  | .misdirected => { s with intake := s.intake.bump .misdirected }
  | .good p => if s.intake.queue.length < Config.intakeQueueSize then s.admitParcel p else s.overrunDrop p

/-- An arrival on the intake forward pair while the link is UP (R133). -/
def State.intakeArrival (s : State) (rx : List RxWord) : State :=
  let s1 := { s with intake := s.intake.bump .arrived }
  if s1.intake.port = .halted then { s1 with intake := s1.intake.dropHalted }
  else s1.acceptArrival (intakeVerdict rx)

/-- INTAKE_ARRIVAL. While the link is DOWN nothing arrives (R133, R144). -/
def execIntakeArrival (rx : List RxWord) (s : State) : Host.Outcome State Fault Refusal :=
  whileRunning (fun s => if s.intake.link = .up ∧ isParcel rx = true then s.intakeArrival rx else s) s

/-! ### Link and pace events -/

/-- The intake link comes UP: the last sent pace being absent, a PACE parcel may start (R142, R144). -/
def IntakePort.linkUp (p : IntakePort) : IntakePort :=
  IntakePort.startPace { p with link := .up, lastSent := none }

/-- INTAKE_LINK_UP (R144). -/
def execIntakeLinkUp (s : State) : Host.Outcome State Fault Refusal :=
  whileRunning (fun s => if s.intake.link = .down then { s with intake := s.intake.linkUp } else s) s

/-- The intake link goes DOWN (R144): a parcel being received is counted as cut, a PACE parcel being sent is abandoned
and the last sent pace becomes absent. -/
def IntakePort.linkDown (p : IntakePort) (receiving : Bool) : IntakePort :=
  let p1 := IntakePort.bump { p with link := .down, sending := none, lastSent := none } .linkDowns
  if receiving then p1.bump .cut else p1

/-- INTAKE_LINK_DOWN (R144). -/
def execIntakeLinkDown (receiving : Bool) (s : State) : Host.Outcome State Fault Refusal :=
  whileRunning (fun s => if s.intake.link = .up then { s with intake := s.intake.linkDown receiving } else s) s

/-- The transmission of a PACE parcel ends (R142): the last sent pace becomes the state it carried, and the next PACE
parcel starts if the pace state differs. -/
def IntakePort.paceEnd (p : IntakePort) : IntakePort :=
  match p.sending with
  | some x => IntakePort.startPace { p with lastSent := some x, sending := none }
  | none => p

/-- INTAKE_PACE_END (R142). -/
def execIntakePaceEnd (s : State) : Host.Outcome State Fault Refusal :=
  whileRunning (fun s => { s with intake := s.intake.paceEnd }) s

/-! ### The offer -/

/-- The head leaves the intake queue after a take or a discard (R139): counted, head waiting no, overrun noticed
cleared below the halt level (R138), and the pace state set again (R141). -/
def IntakePort.dequeue (p : IntakePort) (c : IntakeCounter) : IntakePort :=
  IntakePort.repace (IntakePort.clearOverrun (IntakePort.bump { p with queue := p.queue.tail, headWaiting := false } c))

/-- The answer to an offer acted on (R139). After a wait, head waiting is yes, whatever the offer itself has moved in
the lane (R132, R140; log 14). -/
def State.actOn (s : State) (a : Answer) : State :=
  match a with
  | .take => { s with intake := s.intake.dequeue .taken }
  | .discard => { s with intake := s.intake.dequeue .discards }
  | .wait => { s with intake := { s.intake with headWaiting := true } }

/-- The offer of the head parcel to its lane, when one is due (R139). -/
def State.offerHead (s : State) : State :=
  match s.intake.queue with
  | [] => s
  | p :: _ => if s.intake.headWaiting then s else (s.answer p).2.actOn (s.answer p).1

/-- OFFER (R139). -/
def execOffer (s : State) : Host.Outcome State Fault Refusal := whileRunning State.offerHead s

end Sys2Proof.Machine
end

