-- ==== Sys2Proof/Machine/LaneCommands.lean ====
section
/-! DEFINITION. The lane commands: CONFIGURE_LANE, START_LANE, STOP_LANE, ABORT_LANE, READ_LANE, CLEAR_LANE_COUNTERS (R4,
R7, R9, R11, R12, R13). -/

namespace Sys2Proof.Machine

/-! ### CONFIGURE_LANE -/

/-- A new record changes a field that is not live, or moves the route to or from ECHO or CHECK (R2, R4 test 3). -/
def LaneConfig.changesFixed (old new : LaneConfig) : Bool :=
  decide (new.startOption ≠ old.startOption) || decide (new.lookahead ≠ old.lookahead)
    || decide (new.parcelLimit ≠ old.parcelLimit) || decide (new.slack ≠ old.slack)
    || (decide (new.route ≠ old.route) && !(new.route.usesHoldLine && old.route.usesHoldLine))

/-- The rule of CONFIGURE_LANE (R4). -/
def configureLane (args : List Word) (s : State) : CommandResult :=
  match args with
  | w :: ws =>
    if ws.length ≠ 26 then refuse .badLength s
    else
      match argLane w, LaneConfig.ofWords ws with
      | some l, some c =>
        let ln := s.lane l
        if ln.state ≠ .off ∧ ln.config.changesFixed c = true then refuse .laneActive s
        else if ln.state ≠ .off ∧ c.route = .generate ∧ ln.config.route ≠ .generate
            ∧ s.generator.lane ≠ some l then refuse .notAttached s
        else doneWith [] ((s.modLane l fun ln => { ln with config := c }).wake l)
      | _, _ => refuse .badArgument s
  | [] => refuse .badLength s

/-- CONFIGURE_LANE, command 10h. -/
def execConfigureLane (s : State) : Host.Outcome State Fault Refusal :=
  takeCommand codeConfigureLane configureLane s

/-! ### START_LANE -/

/-- The lane's route needs a pattern unit that is not attached to it (R7 test 4). -/
def State.lacksUnit (s : State) (l : LaneId) : Bool :=
  match (s.lane l).config.route with
  | .generate => decide (s.generator.lane ≠ some l)
  | .check => decide (s.checker.lane ≠ some l)
  | .restore => false
  | .pass => false
  | .mute => false
  | .echo => false

/-- A lane takes its allocation and becomes ARMED (R7). -/
def State.armLane (s : State) (l : LaneId) : State :=
  (s.changeState l .armed).modLane l fun ln =>
    { ln with allocation := ln.config.allocation, expected := none, timer := ln.timer.stop }

/-- The rule of START_LANE for a lane number in range (R7). -/
def startLane (l : LaneId) (s : State) : CommandResult :=
  let ln := s.lane l
  if ln.state ≠ .off then refuse .laneActive s
  else if s.lacksUnit l then refuse .notAttached s
  else if s.freePlaces < ln.config.allocation then refuse .noSpace s
  else
    let s1 := s.armLane l
    doneWith [natWord ln.config.allocation, natWord s1.freePlaces] s1

/-- START_LANE, command 11h. -/
def execStartLane (s : State) : Host.Outcome State Fault Refusal :=
  takeCommand codeStartLane (laneCommand startLane) s

/-! ### STOP_LANE -/

/-- The rule of STOP_LANE for a lane number in range (R9). On an OFF lane the outcome is LANE_IDLE, which R167 does not
count among the refusals (log 12). -/
def stopLane (l : LaneId) (s : State) : CommandResult :=
  match (s.lane l).state with
  | .off => { outcome := .laneIdle, refused := false, words := [], after := s }
  | .armed => doneWith [] ((s.becomeOff l).issue (laneNotice .laneIdle l 0 0))
  | .stalled => doneWith [] ((s.becomeOff l).issue (laneNotice .laneIdle l 0 0))
  | .running _ => doneWith [] (s.beginDrain l .off)
  | .draining .armed => doneWith [] (s.changeState l (.draining .off))
  | .draining .off => doneWith [] s

/-- STOP_LANE, command 12h. -/
def execStopLane (s : State) : Host.Outcome State Fault Refusal :=
  takeCommand codeStopLane (laneCommand stopLane) s

/-! ### ABORT_LANE -/

/-- The repair work of a lane is dropped: its queue entries are removed, and the repair in progress is abandoned if it
is the lane's (R85, R93). -/
def State.dropRepairWork (s : State) (l : LaneId) : State :=
  { s with
    repair :=
      { queue := s.repair.queue.filter fun e => !decide (e.lane = l)
        inProgress := s.repair.inProgress.filter fun e => !decide (e.lane = l) } }

/-- The run records of a lane are released without counting or notice; a release clears the full-noticed flag (R11,
R66, R93). -/
def State.dropRuns (s : State) (l : LaneId) : State :=
  if (s.lane l).det.runs.isEmpty then s
  else { s.modDet l fun d => { d with runs := [] } with fullNoticed := false }

/-- What an aborted lane discards and forgets (R11, R93, R113). -/
def Lane.discardWork (ln : Lane) : Lane :=
  { ln with
    held := []
    assembly := .empty
    marks := []
    expected := none
    timer := ln.timer.stop }

/-- A lane is aborted (R11): its repair work, run records, hold line, assembly and marks are discarded, it leaves the
placement wait list (R113), and it becomes OFF. -/
def State.abort (s : State) (l : LaneId) : State :=
  ((((s.dropRepairWork l).dropRuns l).modLane l Lane.discardWork).leaveWait l).becomeOff l

/-- The rule of ABORT_LANE for a lane number in range (R11). -/
def abortLane (l : LaneId) (s : State) : CommandResult :=
  if (s.lane l).state = .off then refuse .laneIdle s else doneWith [] (s.abort l)

/-- ABORT_LANE, command 13h. -/
def execAbortLane (s : State) : Host.Outcome State Fault Refusal :=
  takeCommand codeAbortLane (laneCommand abortLane) s

/-! ### READ_LANE -/

/-- The sequence expectation in two words, FFFFh and 0 when absent (R179, R181). -/
def expectedWords : Option SeqNum → List Word
  | none => [0xFFFF, 0]
  | some e => [natWord (e.toNat / 65536), e.extractLsb' 0 16]

/-- The 74 result words of READ_LANE (R12, R181). -/
def Lane.readWords (ln : Lane) : List Word :=
  ln.config.words
    ++ [natWord ln.state.code, natWord ln.state.drainTargetCode, boolWord ln.state.stallPending]
    ++ [natWord ln.allocation, natWord ln.occupancy, natWord ln.assembly.collected, natWord ln.marks.length]
    ++ expectedWords ln.expected
    ++ words32 (BitVec.ofNat 32 ln.nextPosition)
    ++ [natWord ln.det.runs.length, natWord ln.gate.index, natWord ln.hum.index]
    ++ [natWord ln.timer.remaining, boolWord ln.timer.counting]
    ++ ln.counters.toList.flatMap words32

/-- The rule of READ_LANE for a lane number in range (R12). -/
def readLane (l : LaneId) (s : State) : CommandResult := doneWith (s.lane l).readWords s

/-- READ_LANE, command 14h. -/
def execReadLane (s : State) : Host.Outcome State Fault Refusal :=
  takeCommand codeReadLane (laneCommand readLane) s

/-! ### CLEAR_LANE_COUNTERS -/

/-- The rule of CLEAR_LANE_COUNTERS for a lane number in range (R13). -/
def clearLaneCounters (l : LaneId) (s : State) : CommandResult :=
  doneWith [] (s.modLane l fun ln => { ln with counters := Vector.replicate 16 0 })

/-- CLEAR_LANE_COUNTERS, command 15h. -/
def execClearLaneCounters (s : State) : Host.Outcome State Fault Refusal :=
  takeCommand codeClearLaneCounters (laneCommand clearLaneCounters) s

end Sys2Proof.Machine
end

