-- ==== Sys2Proof/Machine/PartEvents.lean ====
section
/-! DEFINITION. The events of the lanes' timers, of the repair unit and of the RESET line: STARVATION_EXPIRY, REPAIR_TAKE,
REPAIR_COMPLETION, RESET_ASSERT, POWER_ON_START (R26, R82, R84, R171), and the millisecond tick (R25, R157). -/

namespace Sys2Proof.Machine

/-! ### The starvation timer -/

/-- A stall becomes pending on a lane and its hold line flushes (R26, R88). -/
def State.expireLane (s : State) (l : LaneId) : State := (s.changeState l (.running true)).flush l

/-- STARVATION_EXPIRY: the starvation timer of a RUNNING lane with no stall pending has reached 0 (R25, R26). -/
def execStarvationExpiry (l : LaneId) (s : State) : Host.Outcome State Fault Refusal :=
  whileRunning
    (fun s =>
      if (s.lane l).state = .running false ∧ (s.lane l).timer.expired = true then s.expireLane l else s) s

/-! ### The repair unit -/

/-- The take of the repair unit (R82): the head entry leaves the queue, its run becomes REPAIRING, the unit BUSY. -/
def State.takeRepair (s : State) : State :=
  match s.repair.inProgress, s.repair.queue with
  | none, e :: rest =>
    State.modDet { s with repair := { queue := rest, inProgress := some e } } e.lane fun d =>
      d.modRun e.run fun r => { r with state := .repairing }
  | none, [] => s
  | some _, _ => s

/-- REPAIR_TAKE (R82). -/
def execRepairTake (s : State) : Host.Outcome State Fault Refusal := whileRunning State.takeRepair s

/-- The repair completion (R84): the run's samples are rewritten, the run becomes REPAIRED, the unit IDLE, a waiting
head of the lane is offered again (R140), and departure of the lane goes on. -/
def State.completeRepair (s : State) : State :=
  match s.repair.inProgress with
  | none => s
  | some e =>
    let s1 := s.modLane e.lane fun ln => ln.repairRun e.run
    (State.wake { s1 with repair := { s1.repair with inProgress := none } } e.lane).depart e.lane

/-- REPAIR_COMPLETION (R84). -/
def execRepairCompletion (s : State) : Host.Outcome State Fault Refusal := whileRunning State.completeRepair s

/-! ### The RESET line -/

/-- The part with every block at its power-on values; the level of DELIVERY_READY is the outside's, and what waits is
not part of the part (R171; log 6). -/
def State.powerOnKeeping (s : State) (resetLine : Bool) : State :=
  { State.reset with
    resetLine := resetLine
    deliveryReady := s.deliveryReady
    pending := s.pending }

/-- RESET_ASSERT: the part is held in reset and all its state is discarded (R171; log 6). -/
def execResetAssert (s : State) : Host.Outcome State Fault Refusal := .next (s.powerOnKeeping true)

/-- POWER_ON_START: RESET is deasserted and every block takes its power-on values (R171; log 6). -/
def execPowerOnStart (s : State) : Host.Outcome State Fault Refusal := .next (s.powerOnKeeping false)

/-! ### The millisecond tick -/

/-- A timer after one tick: while it counts, the remaining time falls by one (R25, R157). -/
def Timer.tick (t : Timer) : Timer := if t.counting then { t with remaining := t.remaining - 1 } else t

/-- A lane after one tick (R25). -/
def Lane.tick (ln : Lane) : Lane := { ln with timer := ln.timer.tick }

/-- The expiries a tick has brought about, the lanes' in lane order and then the batch's (R25, R157; log 2). -/
def State.expiries (s : State) : List Instr :=
  ((List.finRange 16).filter fun l => (s.lane l).timer.expired).map Instr.starvationExpiry
    ++ (if s.delivery.timer.expired then [Instr.batchExpiry] else [])

/-- The millisecond tick: every counting timer falls by one, and each that reaches 0 puts its expiry at the back of the
queue. No timer counts while RESET is asserted (R171; log 2). -/
def State.tick (s : State) : State :=
  if s.resetLine then s
  else
    let s1 :=
      { s with
        lanes := s.lanes.map Lane.tick
        delivery := { s.delivery with timer := s.delivery.timer.tick } }
    { s1 with pending := s.pending ++ s1.expiries }

end Sys2Proof.Machine
end

