-- ==== Sys2Proof/Machine/PatternCommands.lean ====
section
/-! DEFINITION. The pattern commands: SET_PATTERN, ATTACH_GENERATOR, ATTACH_CHECKER, LATCH_CHECKER, INJECT_ERROR (R117,
R118, R119, R121, R127). -/

namespace Sys2Proof.Machine

/-- The rule of SET_PATTERN (R117): unit 0 is the generator, whose next word becomes the first of the new sequence;
unit 1 is the checker, which returns to SEARCH with CHECK_LOST detail 3 if it was LOCKED. -/
def setPattern (args : List Word) (s : State) : CommandResult :=
  match args with
  | [uw, kw, a, b] =>
    match argRange 0 1 uw, argPattern kw a b with
    | some u, some p =>
      if u = 0 then doneWith [] { s with generator := { s.generator with setting := p, next := p.first } }
      else doneWith [] (State.checkerSearch { s with checker := { s.checker with setting := p } } 0 3)
    | _, _ => refuse .badArgument s
  | _ => refuse .badLength s

/-- SET_PATTERN, command 40h. -/
def execSetPattern (s : State) : Host.Outcome State Fault Refusal := takeCommand codeSetPattern setPattern s

/-- A unit attached to lane `held` is in use on route r, and the argument names another lane or NONE (R118, R119, test
3). -/
def State.unitInUse (s : State) (held new : Option LaneId) (r : Route) : Bool :=
  match held with
  | some l => decide ((s.lane l).state ≠ .off) && decide ((s.lane l).config.route = r) && decide (new ≠ held)
  | none => false

/-- The rule of ATTACH_GENERATOR (R118). -/
def attachGenerator (args : List Word) (s : State) : CommandResult :=
  match args with
  | [w] =>
    match argLaneOrNone w with
    | some new =>
      if s.unitInUse s.generator.lane new .generate then refuse .inUse s
      else doneWith [] { s with generator := { s.generator with lane := new, next := s.generator.setting.first } }
    | none => refuse .badArgument s
  | _ => refuse .badLength s

/-- ATTACH_GENERATOR, command 41h. -/
def execAttachGenerator (s : State) : Host.Outcome State Fault Refusal :=
  takeCommand codeAttachGenerator attachGenerator s

/-- The rule of ATTACH_CHECKER (R119). -/
def attachChecker (args : List Word) (s : State) : CommandResult :=
  match args with
  | [w] =>
    match argLaneOrNone w with
    | some new =>
      if s.unitInUse s.checker.lane new .check then refuse .inUse s
      else doneWith [] (State.checkerSearch { s with checker := { s.checker with lane := new } } 0 3)
    | none => refuse .badArgument s
  | _ => refuse .badLength s

/-- ATTACH_CHECKER, command 42h. -/
def execAttachChecker (s : State) : Host.Outcome State Fault Refusal :=
  takeCommand codeAttachChecker attachChecker s

/-- The 10 result words of LATCH_CHECKER (R127, R181). -/
def State.latchWords (s : State) : List Word :=
  let c := s.checker
  [c.state.code, laneCode c.lane, laneCode s.generator.lane, c.state.verifyRun, mismatches c.state.history].map natWord
    ++ words32 c.wordCount
    ++ words32 (c.errorCount.setWidth 32)
    ++ [natWord (flagBit c.wordSaturated 0 + flagBit c.errorSaturated 1)]

/-- The checker's counters and saturation flags cleared (R127). -/
def Checker.clearCounts (c : Checker) : Checker :=
  { c with wordCount := 0, errorCount := 0, wordSaturated := false, errorSaturated := false }

/-- The rule of LATCH_CHECKER (R127). -/
def latchChecker (s : State) : CommandResult :=
  doneWith s.latchWords { s with checker := s.checker.clearCounts }

/-- LATCH_CHECKER, command 43h. -/
def execLatchChecker (s : State) : Host.Outcome State Fault Refusal :=
  takeCommand codeLatchChecker (bareCommand latchChecker) s

/-- The generator after INJECT_ERROR with mode 0 OFF, 1 SINGLE or 2 PERIODIC (R121). -/
def Generator.inject (g : Generator) (mode period : Nat) : Generator :=
  if mode = 0 then { g with single := false, period := 0, countdown := 0 }
  else if mode = 1 then { g with single := true }
  else { g with period := period, countdown := period }

/-- The rule of INJECT_ERROR (R121). -/
def injectError (args : List Word) (s : State) : CommandResult :=
  match args with
  | [mw, pw] =>
    if 2 < mw.toNat ∨ (mw.toNat = 2 ∧ pw.toNat = 0) then refuse .badArgument s
    else if s.generator.lane = none then refuse .notAttached s
    else doneWith [] { s with generator := s.generator.inject mw.toNat pw.toNat }
  | _ => refuse .badLength s

/-- INJECT_ERROR, command 44h. -/
def execInjectError (s : State) : Host.Outcome State Fault Refusal := takeCommand codeInjectError injectError s

end Sys2Proof.Machine
end

