-- ==== Sys2Proof/Machine/PortCommands.lean ====
section
/-! DEFINITION. The commands of the ports and of the part: SET_INTAKE, RESUME_INTAKE, READ_PORTS, SET_DELIVERY,
FLUSH_NOTICES, RESET_PART, BAD_COMMAND (R136, R143, R155, R159, R167, R169, R170). -/

namespace Sys2Proof.Machine

/-! ### SET_INTAKE and RESUME_INTAKE -/

/-- The intake port with new settings (R143): the pace state is set again, overrun noticed is cleared below the halt
level, and a form that newly includes parcels makes the last sent pace absent. -/
def IntakePort.configure (p : IntakePort) (halt resume : Nat) (form : PaceForm) (onDamage : Bool) : IntakePort :=
  IntakePort.repace (IntakePort.clearOverrun
    { p with
      haltLevel := halt
      resumeLevel := resume
      form := form
      haltOnDamage := onDamage
      lastSent := if form.hasParcel && !p.form.hasParcel then none else p.lastSent })

/-- The rule of SET_INTAKE (R143). -/
def setIntake (args : List Word) (s : State) : CommandResult :=
  match args with
  | [hw, rw, fw, dw] =>
    match argRange 8 48 hw, argPaceForm fw, argBool dw with
    | some h, some f, some d =>
      if h ≤ rw.toNat then refuse .badArgument s
      else doneWith [] { s with intake := s.intake.configure h rw.toNat f d }
    | _, _, _ => refuse .badArgument s
  | _ => refuse .badLength s

/-- SET_INTAKE, command 50h. -/
def execSetIntake (s : State) : Host.Outcome State Fault Refusal := takeCommand codeSetIntake setIntake s

/-- The rule of RESUME_INTAKE (R136). -/
def resumeIntake (s : State) : CommandResult :=
  if s.intake.port = .halted then
    doneWith [natWord s.intake.drops] { s with intake := IntakePort.repace { s.intake with port := .accepting } }
  else doneWith [0] s

/-- RESUME_INTAKE, command 51h. -/
def execResumeIntake (s : State) : Host.Outcome State Fault Refusal :=
  takeCommand codeResumeIntake (bareCommand resumeIntake) s

/-! ### READ_PORTS -/

/-- The intake fields of READ_PORTS, words 0..29 (R169, R181). -/
def IntakePort.readWords (p : IntakePort) : List Word :=
  [p.link.code, p.port.code, p.queue.length, p.pace.code, p.haltLevel, p.resumeLevel, p.form.code].map natWord
    ++ [boolWord p.haltOnDamage]
    ++ p.counters.toList.flatMap words32

/-- The delivery fields of READ_PORTS, words 30..64 (R169, R181). -/
def DeliveryPort.readWords (d : DeliveryPort) (ready : Bool) : List Word :=
  [d.link.code, d.samples.length, d.messages.length, d.batch.length].map natWord
    ++ [boolWord d.commitPending, boolWord d.lossFlag, natWord d.pace.code, natWord d.lastPace.code, boolWord ready,
      natWord d.form.code, natWord d.batchTime]
    ++ d.counters.toList.flatMap words32

/-- The number of run records in use (R169). -/
def State.runsInUse (s : State) : Nat := (s.lanes.toList.map fun ln => ln.det.runs.length).sum

/-- The shared resources of READ_PORTS, words 65..70 (R169, R181). -/
def State.resourceWords (s : State) : List Word :=
  [natWord s.freePlaces, natWord s.runsInUse, boolWord s.fullNoticed, natWord s.repair.queue.length,
    boolWord s.repair.inProgress.isSome, natWord s.waitList.length]

/-- The 84 result words of READ_PORTS (R169, R181). -/
def State.portWords (s : State) : List Word :=
  s.intake.readWords ++ s.delivery.readWords s.deliveryReady ++ s.resourceWords
    ++ [natWord s.control.queue.length] ++ s.control.counters.toList.flatMap words32

/-- The rule of READ_PORTS (R169). -/
def readPorts (s : State) : CommandResult := doneWith s.portWords s

/-- READ_PORTS, command 52h. -/
def execReadPorts (s : State) : Host.Outcome State Fault Refusal :=
  takeCommand codeReadPorts (bareCommand readPorts) s

/-! ### SET_DELIVERY and FLUSH_NOTICES -/

/-- The rule of SET_DELIVERY (R155). -/
def setDelivery (args : List Word) (s : State) : CommandResult :=
  match args with
  | [fw, tw] =>
    match argPaceForm fw, argRange 1 255 tw with
    | some f, some t =>
      doneWith [] (State.freshPace { s with delivery := { s.delivery with form := f, batchTime := t } })
    | _, _ => refuse .badArgument s
  | _ => refuse .badLength s

/-- SET_DELIVERY, command 53h. -/
def execSetDelivery (s : State) : Host.Outcome State Fault Refusal := takeCommand codeSetDelivery setDelivery s

/-- The rule of FLUSH_NOTICES (R159): the entries committed in this event, and the entries left with commit pending. -/
def flushNotices (s : State) : CommandResult :=
  let n := s.delivery.batch.length
  if n = 0 then doneWith [0, 0] s
  else if s.delivery.messageRoom then doneWith [natWord n, 0] { s with delivery := s.delivery.commitDue }
  else doneWith [0, natWord n] { s with delivery := s.delivery.commitDue }

/-- FLUSH_NOTICES, command 54h. -/
def execFlushNotices (s : State) : Host.Outcome State Fault Refusal :=
  takeCommand codeFlushNotices (bareCommand flushNotices) s

/-! ### RESET_PART -/

/-- A profile under RESET_PART (R46): a pending swap is cancelled, the READY bank becoming LOADING. -/
def HumProfile.cancelSwap (p : HumProfile) : HumProfile := { p with swapPending := false }

/-- The generator under RESET_PART (R131). -/
def Generator.resetPart (g : Generator) : Generator :=
  { g with
    next := g.setting.first
    single := false
    countdown := if g.period = 0 then g.countdown else g.period }

/-- The checker under RESET_PART (R131). -/
def Checker.resetPart (c : Checker) : Checker :=
  { c with
    state := .search
    wordCount := 0
    errorCount := 0
    wordSaturated := false
    errorSaturated := false }

/-- The intake port under RESET_PART (R147). -/
def IntakePort.resetPart (p : IntakePort) : IntakePort :=
  IntakePort.repace
    { p with
      queue := []
      headWaiting := false
      port := .accepting
      drops := 0
      overrunNoticed := false
      counters := Vector.replicate 11 0 }

/-- The delivery port under RESET_PART (R163): a sample transmission is cut, a message transmission runs on. -/
def DeliveryPort.resetPart (d : DeliveryPort) : DeliveryPort :=
  { d with
    samples := []
    transmission := if d.transmission = .sample then .none else d.transmission
    batch := []
    timer := Timer.idle
    commitPending := false
    lossFlag := false
    counters := Vector.replicate 12 0 }

/-- The effects of RESET_PART on every block (R170: R29, R46, R69, R94, R114, R131, R147, R163) and on the control unit,
whose queue and control-lost flag are kept. -/
def State.resetPart (s : State) : State :=
  { s with
    lanes := s.lanes.map fun (ln : Lane) => Lane.cleared ln.config
    profiles := s.profiles.map HumProfile.cancelSwap
    fullNoticed := false
    repair := RepairUnit.powerOn
    waitList := []
    generator := s.generator.resetPart
    checker := s.checker.resetPart
    intake := s.intake.resetPart
    delivery := s.delivery.resetPart
    control := { s.control with counters := Vector.replicate 6 0 } }

/-- The rule of RESET_PART (R170). -/
def resetPart (s : State) : CommandResult := doneWith [] s.resetPart

/-- RESET_PART, command 60h. -/
def execResetPart (s : State) : Host.Outcome State Fault Refusal :=
  takeCommand codeResetPart (bareCommand resetPart) s

/-! ### BAD_COMMAND -/

/-- The CONTROL parcel has a command code this guide does not give, or none (R167, R177). -/
def ControlParcel.isBad (p : ControlParcel) : Bool :=
  match p.code? with
  | some c => !knownCodes.contains c
  | none => true

/-- The take of a CONTROL parcel with an unknown or missing command code (R167, R177). -/
def execBadCommand (s : State) : Host.Outcome State Fault Refusal :=
  whileRunning (takeWhen ControlParcel.isBad fun _ s => refuse .badCommand s) s

end Sys2Proof.Machine
end

