-- ==== Sys2Proof/Machine/RampCommands.lean ====
section
/-! DEFINITION. The ramp commands: WRITE_RAMP and READ_RAMP (R111, R112). -/

namespace Sys2Proof.Machine

/-- 16 gains, each at most 256, as a table (R111 test 2). -/
def gainsOf (ws : List Word) : Option (Vector Nat 16) :=
  if h : ws.length = 16 then
    if ws.all fun w => decide (w.toNat ≤ 256) then
      some ⟨(ws.map BitVec.toNat).toArray, by simp [h]⟩
    else none
  else none

/-- The rule of WRITE_RAMP (R111). -/
def writeRamp (args : List Word) (s : State) : CommandResult :=
  match args with
  | tw :: ws =>
    if ws.length ≠ 16 then refuse .badLength s
    else
      match argRamp tw, gainsOf ws with
      | some t, some g => doneWith [] { s with ramps := s.ramps.set t g }
      | _, _ => refuse .badArgument s
  | [] => refuse .badLength s

/-- WRITE_RAMP, command 30h. -/
def execWriteRamp (s : State) : Host.Outcome State Fault Refusal := takeCommand codeWriteRamp writeRamp s

/-- The rule of READ_RAMP (R112). -/
def readRamp (args : List Word) (s : State) : CommandResult :=
  match args with
  | [tw] =>
    match argRamp tw with
    | some t => doneWith ((s.ramps[t]).toList.map natWord) s
    | none => refuse .badArgument s
  | _ => refuse .badLength s

/-- READ_RAMP, command 31h. -/
def execReadRamp (s : State) : Host.Outcome State Fault Refusal := takeCommand codeReadRamp readRamp s

end Sys2Proof.Machine
end

