-- ==== Sys2Proof/Machine/Dispatch.lean ====
section
/-! DEFINITION. One arm per command and event: each calls its meaning. -/

namespace Sys2Proof.Machine

def exec (i : Instr) (s : State) : Host.Outcome State Fault Refusal :=
  match i with
  | .configureLane => Sys2Proof.Machine.execConfigureLane s
  | .startLane => Sys2Proof.Machine.execStartLane s
  | .stopLane => Sys2Proof.Machine.execStopLane s
  | .abortLane => Sys2Proof.Machine.execAbortLane s
  | .readLane => Sys2Proof.Machine.execReadLane s
  | .clearLaneCounters => Sys2Proof.Machine.execClearLaneCounters s
  | .writeHum => Sys2Proof.Machine.execWriteHum s
  | .readHum => Sys2Proof.Machine.execReadHum s
  | .setHum => Sys2Proof.Machine.execSetHum s
  | .commitHum => Sys2Proof.Machine.execCommitHum s
  | .resyncHum => Sys2Proof.Machine.execResyncHum s
  | .writeRamp => Sys2Proof.Machine.execWriteRamp s
  | .readRamp => Sys2Proof.Machine.execReadRamp s
  | .setPattern => Sys2Proof.Machine.execSetPattern s
  | .attachGenerator => Sys2Proof.Machine.execAttachGenerator s
  | .attachChecker => Sys2Proof.Machine.execAttachChecker s
  | .latchChecker => Sys2Proof.Machine.execLatchChecker s
  | .injectError => Sys2Proof.Machine.execInjectError s
  | .setIntake => Sys2Proof.Machine.execSetIntake s
  | .resumeIntake => Sys2Proof.Machine.execResumeIntake s
  | .readPorts => Sys2Proof.Machine.execReadPorts s
  | .setDelivery => Sys2Proof.Machine.execSetDelivery s
  | .flushNotices => Sys2Proof.Machine.execFlushNotices s
  | .resetPart => Sys2Proof.Machine.execResetPart s
  | .badCommand => Sys2Proof.Machine.execBadCommand s
  | .resetAssert => Sys2Proof.Machine.execResetAssert s
  | .powerOnStart => Sys2Proof.Machine.execPowerOnStart s
  | .intakeArrival words => Sys2Proof.Machine.execIntakeArrival words s
  | .intakeLinkUp => Sys2Proof.Machine.execIntakeLinkUp s
  | .intakeLinkDown receiving => Sys2Proof.Machine.execIntakeLinkDown receiving s
  | .intakePaceEnd => Sys2Proof.Machine.execIntakePaceEnd s
  | .offer => Sys2Proof.Machine.execOffer s
  | .returnArrival words => Sys2Proof.Machine.execReturnArrival words s
  | .deliveryLinkUp => Sys2Proof.Machine.execDeliveryLinkUp s
  | .deliveryLinkDown receiving => Sys2Proof.Machine.execDeliveryLinkDown receiving s
  | .deliveryReadyChange level => Sys2Proof.Machine.execDeliveryReadyChange level s
  | .transmissionStart => Sys2Proof.Machine.execTransmissionStart s
  | .transmissionEnd => Sys2Proof.Machine.execTransmissionEnd s
  | .starvationExpiry lane => Sys2Proof.Machine.execStarvationExpiry lane s
  | .batchExpiry => Sys2Proof.Machine.execBatchExpiry s
  | .repairTake => Sys2Proof.Machine.execRepairTake s
  | .repairCompletion => Sys2Proof.Machine.execRepairCompletion s

end Sys2Proof.Machine
end

