-- ==== Sys2Proof/Machine/Step.lean ====
section
/-! DEFINITION. One step of the part: the command or event at the front of the queue, or one millisecond when nothing
waits. -/

namespace Sys2Proof.Machine

/-- One step: the front of the queue is taken and carried out on the part with the queue's rest. On an empty queue a
millisecond passes (DESIGN CHOICE, log 2). -/
def step (s : State) : Host.Outcome State Fault Refusal :=
  match s.pending with
  | [] => .next s.tick
  | c :: rest => exec c { s with pending := rest }

/-- The command a word spells by the table's bits, put at the front of the queue; no row has bits (log 16). -/
def State.withFetchWord (s : State) (nbits w : Nat) : State :=
  match decodeTableWord nbits w with
  | some c => { s with pending := c :: s.pending }
  | none => s

end Sys2Proof.Machine
end

