-- ==== Sys2Proof/Machine/Link.lean ====
section
/-! DEFINITION. The receiving pairs: how the symbols of a pair bring it into step and out of step and how parcels are
cut out of the stream (R174). Each event a symbol brings about joins the queue of waiting events. -/

namespace Sys2Proof.Machine

/-- The event a symbol brings about (R174): the eighth IDLE in a row brings the pair into step; in step, the fourth
symbol error in a row takes it out, and an IDLE or START ends the parcel being received. -/
def Receiver.event (r : Receiver) (x : Symbol) : Option ReceiverEvent :=
  if r.inStep then
    match x with
    | .idle => r.parcel.map .arrival
    | .start _ => r.parcel.map .arrival
    | .data _ => none
    | .error => if r.errorRun + 1 = 4 then some (.down r.parcel.isSome) else none
  else
    match x with
    | .idle => if r.idleRun + 1 = 8 then some .up else none
    | .start _ => none
    | .data _ => none
    | .error => none

/-- A receiving pair after a symbol (R174). A symbol error inside a parcel is taken as a DATA word of unknown value, and
at most 517 words of a parcel are kept. -/
def Receiver.feed (r : Receiver) (x : Symbol) : Receiver :=
  if r.inStep then
    match x with
    | .idle => { r with errorRun := 0, parcel := none }
    | .start w => { r with errorRun := 0, parcel := some [.word w] }
    | .data w => { r with errorRun := 0, parcel := r.parcel.map fun rx => receiveWord rx w }
    | .error =>
      if r.errorRun + 1 = 4 then { inStep := false, idleRun := 0, errorRun := 0, parcel := none }
      else { r with errorRun := r.errorRun + 1, parcel := r.parcel.map fun rx => rx ++ [.symbolError] }
  else
    match x with
    | .idle =>
      if r.idleRun + 1 = 8 then { inStep := true, idleRun := 0, errorRun := 0, parcel := none }
      else { r with idleRun := r.idleRun + 1 }
    | .start _ => { r with idleRun := 0 }
    | .data _ => { r with idleRun := 0 }
    | .error => { r with idleRun := 0 }

/-- The command an event of the intake forward pair is (R133, R144). -/
def intakeEvent : ReceiverEvent → Instr
  | .up => .intakeLinkUp
  | .down receiving => .intakeLinkDown receiving
  | .arrival ws => .intakeArrival ws

/-- The command an event of the delivery return pair is (R154, R160). -/
def returnEvent : ReceiverEvent → Instr
  | .up => .deliveryLinkUp
  | .down receiving => .deliveryLinkDown receiving
  | .arrival ws => .returnArrival ws

/-- A symbol is received on the intake forward pair: its event joins the back of the waiting events. While RESET is
asserted the part receives nothing (R171). -/
def State.intakeSymbol (s : State) (x : Symbol) : State :=
  if s.resetLine then s
  else
    { s with
      intake := { s.intake with receiver := s.intake.receiver.feed x }
      pending := s.pending ++ ((s.intake.receiver.event x).map intakeEvent).toList }

/-- A symbol is received on the delivery return pair: its event joins the back of the waiting events. -/
def State.returnSymbol (s : State) (x : Symbol) : State :=
  if s.resetLine then s
  else
    { s with
      delivery := { s.delivery with receiver := s.delivery.receiver.feed x }
      pending := s.pending ++ ((s.delivery.receiver.event x).map returnEvent).toList }

end Sys2Proof.Machine
end

