-- ==== Sys2Proof/Safety.lean ====
section
/-! DEFINITION. The laws of the part as predicates on its state: what the spec says holds of every state between two
events. Each is decidable, and claims about steps are stated in terms of them. -/

namespace Sys2Proof.Machine

/-! ### Queues and pacing -/

/-- The capacities of R132: the intake queue holds at most 48 parcels, the sample queue 32, the message queue 8, the
notice batch 8 entries and the control queue 4. No place is set aside for a REPLY between two events (log 8). -/
abbrev QueuesInBounds (s : State) : Prop :=
  s.intake.queue.length ≤ 48 ∧ s.delivery.samples.length ≤ 32 ∧ s.delivery.messages.length ≤ 8
    ∧ s.delivery.batch.length ≤ 8 ∧ s.control.queue.length ≤ 4 ∧ s.delivery.replyReserved = false

/-- The law of R141 on the intake pace state, with the levels in the ranges of R132. -/
abbrev IntakePaceLaw (s : State) : Prop :=
  (8 ≤ s.intake.haltLevel ∧ s.intake.haltLevel ≤ 48 ∧ s.intake.resumeLevel < s.intake.haltLevel)
    ∧ (s.intake.port = .halted ∨ s.intake.haltLevel ≤ s.intake.queue.length → s.intake.pace = .stop)
    ∧ (s.intake.port = .accepting ∧ s.intake.queue.length ≤ s.intake.resumeLevel → s.intake.pace = .go)

/-- The delivery pace is STOP exactly when R153 says so. While RESET is asserted the settings stand at their power-on
values, under which the level of DELIVERY_READY does not enter (log 6). -/
abbrev DeliveryPaceLaw (s : State) : Prop :=
  (s.resetLine = true → s.delivery.form = .byParcel ∧ s.delivery.lastPace = .go)
    ∧ (s.delivery.pace = .stop ↔
        ((s.delivery.form = .byParcel ∨ s.delivery.form = .both) ∧ s.delivery.lastPace = .stop)
          ∨ ((s.delivery.form = .byLine ∨ s.delivery.form = .both) ∧ s.deliveryReady = false))

/-- The laws of R156 to R158 on the notice batch: a batch of 8 entries waits for a commit; a commit is pending only with
entries in the batch and the message queue full; and the batch timer counts exactly while entries stand in the batch and
no commit is pending. -/
abbrev BatchLaw (s : State) : Prop :=
  (s.delivery.batch.length = 8 → s.delivery.commitPending = true)
    ∧ (s.delivery.commitPending = true → s.delivery.batch ≠ [] ∧ s.delivery.messages.length = 8)
    ∧ (s.delivery.timer.counting = true ↔ s.delivery.batch ≠ [] ∧ s.delivery.commitPending = false)

/-- A parcel in transmission is the head of its queue, so that queue is not empty, and the link is UP (R148, R160). -/
abbrev TransmissionLaw (s : State) : Prop :=
  (s.delivery.transmission = .sample → s.delivery.samples ≠ [])
    ∧ (s.delivery.transmission = .message → s.delivery.messages ≠ [])
    ∧ (s.delivery.transmission ≠ .none → s.delivery.link = .up)

/-! ### Parcels -/

/-- A parcel of the intake queue is in the ranges of R134. -/
def InParcel.inRange : InParcel → Bool
  | .samples _ _ vs => decide (1 ≤ vs.length) && decide (vs.length ≤ 512)
  | .mark _ _ _ o _ => decide (o ≤ 511)

/-- A parcel of the sample queue has a form of R176 and R178. -/
def OutParcel.inRange : OutParcel → Bool
  | .samples _ _ _ vs => decide (1 ≤ vs.length) && decide (vs.length ≤ 512)
  | .mark _ _ _ o _ => decide (o ≤ 511)

/-- A parcel of the message queue has a form of R176: at most 256 result words, or 1..8 notice entries. -/
def Message.inRange : Message → Bool
  | .reply _ _ _ ws => decide (ws.length ≤ 256)
  | .notice _ es => decide (1 ≤ es.length) && decide (es.length ≤ 8)

/-- Every parcel of the intake queue is one that R134 admits. -/
abbrev IntakeParcelLaw (s : State) : Prop := ∀ p ∈ s.intake.queue, p.inRange = true

/-- The parts in a lane's assembly have a form of R176 and R178: at most 512 samples, and in a COMPLETE assembly at least
one, with marks in range. -/
def Assembly.inRange : Assembly → Bool
  | .empty => true
  | .building b => decide (b.count ≤ 512)
  | .complete b ms _ =>
    decide (1 ≤ b.samples.length) && decide (b.samples.length ≤ 512) && ms.all fun m => decide (m.offset ≤ 511)

/-- What a lane holds on the way to the sample queue is in the ranges of R134: its marks, its held parcels and the parts
of its assembly. -/
abbrev LaneParcelLaw (ln : Lane) : Prop :=
  (∀ m ∈ ln.marks, m.offset ≤ 511) ∧ (∀ p ∈ ln.held, 1 ≤ p.count ∧ p.count ≤ 512) ∧ ln.assembly.inRange = true

/-- Every parcel the part sends is well formed (R177), as are those that lead to it: the parcels of the intake queue
(R134), what the lanes hold, and the two delivery queues. -/
abbrev ParcelLaw (s : State) : Prop :=
  IntakeParcelLaw s ∧ (∀ l : LaneId, LaneParcelLaw (s.lane l)) ∧ (∀ p ∈ s.delivery.samples, p.inRange = true)
    ∧ ∀ m ∈ s.delivery.messages, m.inRange = true

/-! ### The pattern unit -/

/-- The state of the checker is one that R115, R124 and R125 allow between two events: fewer than 24 matches in VERIFY,
and in LOCKED at most 48 results with fewer than 4 of them MISMATCH. -/
def CheckerState.lawful : CheckerState → Bool
  | .search => true
  | .verify _ n => decide (n < 24)
  | .locked _ h => decide (h.length ≤ 48) && decide (mismatches h < 4)

/-- The law of R126: the error count never exceeds the word count, and each saturation flag is yes exactly when its
counter stands at its limit; and the checker's state is lawful. -/
abbrev CheckerLaw (c : Checker) : Prop :=
  c.errorCount.toNat ≤ c.wordCount.toNat
    ∧ (c.wordSaturated = true ↔ c.wordCount.toNat = 4294967295)
    ∧ (c.errorSaturated = true ↔ c.errorCount.toNat = 16777215)
    ∧ c.state.lawful = true

/-- The checker is in VERIFY or LOCKED only while its attached lane is RUNNING on route CHECK (R115). -/
abbrev CheckerBusyLaw (s : State) : Prop :=
  s.checker.state ≠ .search →
    ∃ l, s.checker.lane = some l ∧ (s.lane l).state.isRunning = true ∧ (s.lane l).config.route = .check

/-! ### Hum profiles -/

/-- Every bank has a length of 16..1024 and its entries in their one form, every start phase is below 1,024 (R30), and a
lane's phase index lies below the length of the SERVING bank of its phase profile (R31). -/
abbrev HumLaw (s : State) : Prop :=
  (∀ k : ProfileId, (s.profile k).bankA.wf = true ∧ (s.profile k).bankB.wf = true ∧ (s.profile k).startPhase < 1024)
    ∧ ∀ (l : LaneId) (k : ProfileId),
        (s.lane l).hum.profile = some k → (s.lane l).hum.index < (s.profile k).servingBank.length

/-- While a swap is pending on a profile, the profile has a user: without one, R36 and R38 have taken the swap. -/
abbrev SwapLaw (s : State) : Prop := ∀ k : ProfileId, (s.profile k).swapPending = true → s.hasUser k = true

/-! ### Lanes -/

/-- Every field of a configuration record lies in its range of R2. -/
abbrev ConfigInRange (c : LaneConfig) : Prop :=
  (32 ≤ c.lookahead ∧ c.lookahead ≤ 1024) ∧ (1 ≤ c.parcelLimit ∧ c.parcelLimit ≤ 512) ∧ c.slack ≤ 1024
    ∧ (1 ≤ c.onset ∧ c.onset ≤ 65535) ∧ c.release ≤ c.onset ∧ (1 ≤ c.quietCount ∧ c.quietCount ≤ 64)
    ∧ (1 ≤ c.repairLimit ∧ c.repairLimit ≤ 512) ∧ c.mergeDistance ≤ 64 ∧ c.spliceWidth ≤ 256
    ∧ c.junctionWidth ≤ 64 ∧ c.humGain ≤ 256 ∧ c.openThreshold ≤ 32768 ∧ c.closeThreshold ≤ c.openThreshold
    ∧ (1 ≤ c.holdCount ∧ c.holdCount ≤ 255) ∧ c.watchLimitA ≤ 32768 ∧ c.watchLimitB ≤ 32768
    ∧ c.starvationTime ≤ 255

/-- The law of R6: a lane in OFF has no allocation, another lane has the allocation its record gives (R3), and the
allocations together never exceed the 24,576 places. -/
abbrev HoldMemoryLaw (s : State) : Prop :=
  (∀ l : LaneId,
      ConfigInRange (s.lane l).config
        ∧ (s.lane l).allocation = if (s.lane l).state = .off then 0 else (s.lane l).config.allocation)
    ∧ (s.lanes.toList.map Lane.allocation).sum ≤ 24576

/-- The lane is in OFF, ARMED or STALLED. -/
def LaneState.atRest : LaneState → Bool
  | .off => true
  | .armed => true
  | .stalled => true
  | .running _ => false
  | .draining _ => false

/-- The law of R5: a lane in OFF, ARMED or STALLED has an empty hold line, no run records, no parcel in assembly and an
empty mark list. -/
abbrev RestLaw (ln : Lane) : Prop :=
  ln.state.atRest = true → ln.held = [] ∧ ln.det.runs = [] ∧ ln.assembly = .empty ∧ ln.marks = []

/-- The laws of R73 and R21: a hold line holds no more samples than the lane's allocation, a mark list at most 8
entries. -/
abbrev HoldLineLaw (ln : Lane) : Prop := ln.occupancy ≤ ln.allocation ∧ ln.marks.length ≤ 8

/-- The held parcels stand one behind another, the last ending at the next position (R71, R72). -/
def heldFrom (next : Nat) : List HeldParcel → Bool
  | [] => true
  | p :: rest =>
    decide (p.samples ≠ []) && decide (p.departed + p.samples.length = p.count)
      && (match rest with
          | [] => decide (p.firstPosition + p.count = next)
          | q :: _ => decide (p.firstPosition + p.count = q.firstPosition) && decide (q.departed = 0))
      && heldFrom next rest

/-- The run records of a list are in order of position and cover no common position, each ends before the next position,
and only the last one may be growing (R47, R51). -/
def runsOrdered (next : Nat) : List RunRecord → Bool
  | [] => true
  | r :: rest =>
    decide (r.first ≤ r.last) && decide (r.last < next)
      && (match rest with
          | [] => true
          | q :: _ => decide (r.last < q.first) && !r.growing)
      && runsOrdered next rest

/-- A record's state and growing agree (R51, R56, R82, R90): an OPEN run grows; a QUEUED, REPAIRING or REPAIRED run does
not; and a record that does not grow has its last position still held. -/
def RunRecord.lawful (r : RunRecord) (head : Nat) : Bool :=
  (match r.state with
    | .opened => r.growing
    | .queued => !r.growing && r.leftAnchor.isSome && r.rightAnchor.isSome
    | .repairing => !r.growing && r.leftAnchor.isSome && r.rightAnchor.isSome
    | .repaired => !r.growing
    | .unrepaired _ => true)
  && (r.growing || decide (head ≤ r.last))

/-- The run list and the hold line of a lane agree (R51, R71, R90); an OPEN run with calm samples after it has its calm
start value, which becomes its right anchor (R52, R56); and a lane in which a flush is in force has no growing run (R57,
R88). -/
abbrev RunListLaw (ln : Lane) : Prop :=
  heldFrom ln.nextPosition ln.held = true ∧ runsOrdered ln.nextPosition ln.det.runs = true
    ∧ (∀ r ∈ ln.det.runs, r.lawful ln.headPosition = true)
    ∧ ((∃ r ∈ ln.det.runs, r.state = .opened) → 0 < ln.det.calmCount → ln.det.calmStart.isSome = true)
    ∧ (ln.state.isFlushing = true → ∀ r ∈ ln.det.runs, r.growing = false)

/-- The law of R51: the run table holds at most 64 records, numbered 0..63, each in one lane's run list. -/
abbrev RunTableLaw (s : State) : Prop := s.usedRuns.Nodup ∧ ∀ n ∈ s.usedRuns, n < 64

/-- The records of a lane's run list in a given state, by number. -/
def Lane.runsIn (ln : Lane) (st : RunState) : List Nat :=
  (ln.det.runs.filter fun r => decide (r.state = st)).map RunRecord.number

/-- The law of R80: the repair queue holds at most 16 entries, a run has an entry, and only one, exactly when it is
QUEUED, and the one run that is REPAIRING, if any, is the run in progress. -/
abbrev RepairLaw (s : State) : Prop :=
  s.repair.queue.length ≤ 16 ∧ s.repair.queue.Nodup
    ∧ (∀ e ∈ s.repair.queue, e.run ∈ (s.lane e.lane).runsIn .queued)
    ∧ (∀ l : LaneId, ∀ n ∈ (s.lane l).runsIn .queued, { lane := l, run := n } ∈ s.repair.queue)
    ∧ (∀ e ∈ s.repair.inProgress.toList, e.run ∈ (s.lane e.lane).runsIn .repairing)
    ∧ (∀ l : LaneId, ∀ n ∈ (s.lane l).runsIn .repairing, s.repair.inProgress = some { lane := l, run := n })

/-- The laws of R97 and R103: the placement wait list holds a lane at most once; the lanes on it are those with a part
that waits; and while it holds a lane, the sample queue is full. -/
abbrev WaitListLaw (s : State) : Prop :=
  s.waitList.Nodup ∧ (s.waitList ≠ [] → s.delivery.samples.length = 32)
    ∧ ∀ l : LaneId, l ∈ s.waitList ↔ (s.lane l).hasPart = true

/-- The assembly and the hold line of a lane agree (R77, R97): BUILDING carries the fields of the head held parcel and as
many samples as have departed from it, and COMPLETE has as many samples as its held parcel entered with. -/
def Lane.assemblyLawful (ln : Lane) : Bool :=
  match ln.assembly, ln.held with
  | .empty, [] => true
  | .empty, p :: _ => decide (p.departed = 0)
  | .building _, [] => false
  | .building b, p :: _ =>
    decide (b.seq = p.seq ∧ b.count = p.count ∧ b.route = p.route ∧ b.resumed = p.resumed)
      && decide (b.samples.length = p.departed) && decide (1 ≤ p.departed)
  | .complete b _ _, [] => decide (b.samples.length = b.count)
  | .complete b _ _, p :: _ => decide (b.samples.length = b.count) && decide (p.departed = 0)

/-- The laws of R5, R21, R73, R51, R71, R90 and R97 on one lane, which hold together. -/
abbrev LaneLaws (ln : Lane) : Prop :=
  RestLaw ln ∧ HoldLineLaw ln ∧ RunListLaw ln ∧ ln.assemblyLawful = true

/-- The laws on which the lanes' work rests, and which every step keeps together: the capacities of the queues, hold
memory, the parcels of the intake queue, every lane's own laws, the run table, the repair unit and the wait list. -/
abbrev WorkLaws (s : State) : Prop :=
  QueuesInBounds s ∧ HoldMemoryLaw s ∧ IntakeParcelLaw s ∧ (∀ l : LaneId, LaneLaws (s.lane l)) ∧ RunTableLaw s
    ∧ RepairLaw s ∧ WaitListLaw s

/-- The law of R25: a lane's starvation timer counts only while the lane is RUNNING with no stall pending, and its
remaining time is at most 255 ms. -/
abbrev TimerLaw (ln : Lane) : Prop :=
  (ln.timer.counting = true → ln.state = .running false) ∧ ln.timer.remaining ≤ 255

/-- The gate's hold count and gain index lie in the ranges of R106. -/
def Gate.lawful : Gate → Bool
  | .opened => true
  | .holding n => decide (1 ≤ n) && decide (n ≤ 254)
  | .closing i => decide (1 ≤ i) && decide (i ≤ 14)
  | .closed => true

/-- Every gate is in a state of R106 and every gain in the range of R110. -/
abbrev GateLaw (s : State) : Prop :=
  (∀ l : LaneId, ConfigInRange (s.lane l).config ∧ (s.lane l).gate.lawful = true)
    ∧ ∀ t : RampId, ∀ g ∈ (s.ramps[t]).toList, g ≤ 256

/-! ### The shapes of claims about commands -/

/-- A take of the command with this code is due (R166): RESET is deasserted, the CONTROL parcel with this tag, code and
argument words stands at the head of the control queue with `rest` behind it, and the message queue has a free place. -/
abbrev TakeReady (s : State) (tag code : Word) (args : List Word) (rest : List ControlParcel) : Prop :=
  s.resetLine = false ∧ s.delivery.messages.length < 8
    ∧ s.control.queue = { tag := tag, payload := code :: args } :: rest

/-- The code of a pattern kind in an argument (R116). -/
def PatternKind.code : PatternKind → Nat
  | .shift15 => 0
  | .constant => 1
  | .alternate => 2

/-- The part inside a take, where one place of the message queue is set aside for the REPLY (R159, R166; log 8). -/
def State.inTake (s : State) : State := { s with delivery := { s.delivery with replyReserved := true } }

/-- The part at the end of a take whose effects have made it t (R166 to R168): the head has left the control queue, the
REPLY with its tag, outcome, CONTROL_LOST flag and result words stands at the tail of the message queue, the control-lost
flag is no, and the replies-queued counter, and for a refusal the refused counter, have risen. -/
def State.replied (t : State) (tag : Word) (rest : List ControlParcel) (o : OutcomeCode) (refused : Bool)
    (ws : List Word) : State :=
  { t with
    control :=
      { queue := rest
        lost := false
        counters :=
          if refused then bumpAt (bumpAt t.control.counters 4 1) 5 1 else bumpAt t.control.counters 4 1 }
    delivery :=
      { t.delivery with
        messages := t.delivery.messages ++ [.reply tag o t.control.lost ws]
        replyReserved := false } }

/-- The part after a command answered DONE with result words, its effects having made it t. -/
abbrev State.done (t : State) (tag : Word) (rest : List ControlParcel) (ws : List Word) : State :=
  t.replied tag rest .done false ws

/-- The part after a command refused with outcome o: nothing but the REPLY and its counts (R167). -/
abbrev State.denied (s : State) (tag : Word) (rest : List ControlParcel) (o : OutcomeCode) : State :=
  s.replied tag rest o true []

/-- The intake port with a waiting head offered again if the head names lane l (R140). -/
def IntakePort.offeredAgain (p : IntakePort) (l : LaneId) : IntakePort :=
  { p with headWaiting := p.headWaiting && !(p.queue.head?.any fun x => decide (x.lane = l)) }

/-- What a take leaves of the ports when its command issues notices: notices only have joined the message queue ahead of
the REPLY, which stands at its tail, and the control unit is as at the end of every take. -/
abbrev RepliedAfterNotices (s t : State) (tag : Word) (rest : List ControlParcel) (ws : List Word) : Prop :=
  (∃ ms : List Message, (∀ m ∈ ms, ∃ lost es, m = .notice lost es)
      ∧ t.delivery.messages = s.delivery.messages ++ ms ++ [.reply tag .done s.control.lost ws])
    ∧ t.control = { queue := rest, lost := false, counters := bumpAt s.control.counters 4 1 }
    ∧ t.delivery.replyReserved = false

/-- The phase index of lane m after an event from s to t (R35, step 4): reduced modulo the length of the bank that
begins to serve when the event takes the swap of the lane's phase profile, else as it was. -/
def State.phaseAfter (s t : State) (m : LaneId) : Nat :=
  match (s.lane m).hum.profile with
  | none => (s.lane m).hum.index
  | some k =>
    if (s.profile k).swapPending = true ∧ (t.profile k).swapPending = false then
      (s.lane m).hum.index % ((s.profile k).bank (s.profile k).serving.other).length
    else (s.lane m).hum.index

/-- Every other lane is as it was, but for the phase index of a lane whose phase profile is swapped. -/
abbrev OtherLanesKept (s t : State) (l : LaneId) : Prop :=
  ∀ m : LaneId, m ≠ l →
    t.lane m = { s.lane m with hum := { (s.lane m).hum with index := s.phaseAfter t m } }

/-- The samples, settings and link state of the delivery port are as they were: only its messages, notice batch, batch
timer, commit pending, loss flag and notices-discarded counter may differ. -/
abbrev DeliveryKept (s t : State) : Prop :=
  t.delivery.link = s.delivery.link ∧ t.delivery.samples = s.delivery.samples
    ∧ t.delivery.transmission = s.delivery.transmission ∧ t.delivery.form = s.delivery.form
    ∧ t.delivery.lastPace = s.delivery.lastPace ∧ t.delivery.pace = s.delivery.pace
    ∧ t.delivery.batchTime = s.delivery.batchTime ∧ t.delivery.receiver = s.delivery.receiver
    ∧ ∀ c : DeliveryCounter, c ≠ .noticesDiscarded → t.delivery.counter c = s.delivery.counter c

/-- What becomes of the profiles when lane l leaves RUNNING (R38): the profile it stops using takes a pending swap if no
other lane uses it, and every other profile is as it was. -/
abbrev ProfilesAfterLeaving (s t : State) (l : LaneId) : Prop :=
  ∀ k : ProfileId, t.profile k =
    if (s.lane l).uses k = true ∧ (s.profile k).swapPending = true ∧ (∀ m : LaneId, m ≠ l → (s.lane m).uses k = false)
      then { s.profile k with serving := (s.profile k).serving.other, swapPending := false }
    else s.profile k

/-- What becomes of the profiles in an event in which lane l may leave RUNNING, and takes no parcel (R38). -/
abbrev ProfilesIfLeft (s t : State) (l : LaneId) : Prop :=
  if (s.lane l).state.isRunning = true ∧ (t.lane l).state.isRunning = false then ProfilesAfterLeaving s t l
  else t.profiles = s.profiles

/-- The checker after an event in which lane l may leave RUNNING (R128): back in SEARCH if it is attached to the lane and
the lane left RUNNING, else as it was; its lane, setting and counts are kept. -/
abbrev CheckerIfLeft (s t : State) (l : LaneId) : Prop :=
  t.checker =
    { s.checker with
      state :=
        if s.checker.lane = some l ∧ (s.lane l).state.isRunning = true ∧ (t.lane l).state.isRunning = false then .search
        else s.checker.state }

/-- What a lane's leaving RUNNING makes of the shared units, u being the part with lane l already in its new state and
`old` the phase profile the lane had (R35, R38, R128): a swap pending on that profile, left without a user, is taken, with
HUM_SWAPPED naming lane NONE; and a checker attached to the lane returns to SEARCH, a LOCKED one with CHECK_LOST detail
1. -/
def State.leftBy (u : State) (l : LaneId) (old : Option ProfileId) : State :=
  let v : State :=
    match old with
    | none => u
    | some k =>
      let p := u.profile k
      if p.swapPending = true ∧ ∀ m : LaneId, (u.lane m).uses k = false then
        State.issue
          { u with
            profiles := u.profiles.set k { p with serving := p.serving.other, swapPending := false }
            lanes := u.lanes.map fun (ln : Lane) =>
              if ln.hum.profile = some k then
                { ln with hum := { ln.hum with index := ln.hum.index % (p.bank p.serving.other).length } }
              else ln }
          { kind := .humSwapped, lane := none, seq := 0, detail := BitVec.ofNat 16 k.val
            causes := { detected := false, splice := false, junction := false, conceal := false } }
      else u
  if v.checker.lane = some l then
    let w : State := { v with checker := { v.checker with state := .search } }
    if v.checker.state.isLocked = true then
      w.issue
        { kind := .checkLost, lane := some l, seq := 0, detail := 1
          causes := { detected := false, splice := false, junction := false, conceal := false } }
    else w
  else v

/-! ### The shapes of claims about events -/

/-- What a receiving pair hands on for a parcel of these words, none of them a symbol error (R174): the first 517 kept,
each later one counted, with the check register after it. -/
def receivedAs (ws : List Word) : List RxWord :=
  (ws.take 517).map .word ++ (List.range (ws.length - 517)).map fun i => .unkept (crc (ws.take (518 + i)))

/-- What the work of lane l leaves of the part in any event: the lines, the ramp tables, the control unit, the waiting
events, the settings, links, receivers and counters of the ports, every configuration record (R3), the settings of the
pattern unit, and the other lanes' entries in the repair unit and the wait list. Head waiting may change, notices may be
issued, and parcels may join the sample queue behind those that are there. -/
abbrev WorkKept (s t : State) (l : LaneId) : Prop :=
  t.resetLine = s.resetLine ∧ t.deliveryReady = s.deliveryReady ∧ t.ramps = s.ramps ∧ t.control = s.control
    ∧ t.pending = s.pending
    ∧ t.intake = { s.intake with headWaiting := t.intake.headWaiting }
    ∧ t.delivery.link = s.delivery.link ∧ t.delivery.transmission = s.delivery.transmission
    ∧ t.delivery.form = s.delivery.form ∧ t.delivery.lastPace = s.delivery.lastPace
    ∧ t.delivery.pace = s.delivery.pace ∧ t.delivery.batchTime = s.delivery.batchTime
    ∧ t.delivery.replyReserved = s.delivery.replyReserved ∧ t.delivery.receiver = s.delivery.receiver
    ∧ (∃ ps : List OutParcel, t.delivery.samples = s.delivery.samples ++ ps)
    ∧ (∀ m : LaneId, (t.lane m).config = (s.lane m).config)
    ∧ (∀ c : DeliveryCounter, c ≠ .noticesDiscarded → t.delivery.counter c = s.delivery.counter c)
    ∧ CheckerIfLeft s t l
    ∧ t.generator =
        { s.generator with
          next := t.generator.next, single := t.generator.single, countdown := t.generator.countdown }
    ∧ (s.generator.lane ≠ some l → t.generator = s.generator)
    ∧ (t.repair.queue.filter fun e => decide (e.lane ≠ l)) = s.repair.queue.filter (fun e => decide (e.lane ≠ l))
    ∧ (∀ e : RepairEntry, e.lane ≠ l → (t.repair.inProgress = some e ↔ s.repair.inProgress = some e))
    ∧ (t.waitList.filter fun m => decide (m ≠ l)) = s.waitList.filter (fun m => decide (m ≠ l))

/-- The intake port with its pace state set again from its queue, port state and levels (R141), and a PACE parcel started
where R142 calls for one. -/
def IntakePort.paced (p : IntakePort) : IntakePort :=
  let x : Pace :=
    if p.port = .halted ∨ p.haltLevel ≤ p.queue.length then .stop
    else if p.queue.length ≤ p.resumeLevel then .go
    else p.pace
  { p with
    pace := x
    sending :=
      if p.sending = none ∧ p.form ≠ .byLine ∧ p.link = .up ∧ p.lastSent ≠ some x then some x else p.sending }

/-- The intake port after its head has been taken or discarded, the parcels behind it being rest (R138, R139, R141). -/
def IntakePort.headGone (p : IntakePort) (rest : List InParcel) (c : IntakeCounter) : IntakePort :=
  IntakePort.paced
    { p with
      queue := rest
      headWaiting := false
      overrunNoticed := p.overrunNoticed && decide (p.haltLevel ≤ rest.length)
      counters := bumpAt p.counters c.place 1 }

/-- An offer of parcel x is due, with rest behind it in the intake queue (R139). -/
abbrev OfferReady (s : State) (x : InParcel) (rest : List InParcel) : Prop :=
  s.resetLine = false ∧ s.intake.queue = x :: rest ∧ s.intake.headWaiting = false

/-- The part with the lane's entry and the head's leaving made, the answer being a discard or a take. -/
def State.headActedOn (s : State) (l : LaneId) (ln : Lane) (rest : List InParcel) (c : IntakeCounter) : State :=
  { s with lanes := s.lanes.set l ln, intake := s.intake.headGone rest c }

/-- The lane with one of its counters raised by n, saturating (R27). -/
def Lane.counted (ln : Lane) (c : LaneCounter) (n : Nat) : Lane :=
  { ln with counters := bumpAt ln.counters c.place n }

/-- The parcel with sequence number n is not behind the lane's expectation (R19, order test). -/
abbrev Lane.inOrder (ln : Lane) (n : SeqNum) : Prop :=
  ∀ e : SeqNum, ln.expected = some e → (n - e).toNat < 8388608

/-- The number of parcels missing before one that is in order (R19). -/
def Lane.gapBefore (ln : Lane) (n : SeqNum) : Nat :=
  match ln.expected with
  | none => 0
  | some e => (n - e).toNat

/-- The lane after a parcel of c samples with sequence number n and d parcels missing before it has been counted (R16,
R17, R19): its gap, its entry, its expectation and its positions. -/
def Lane.parcelCounted (ln : Lane) (n : SeqNum) (c d : Nat) : Lane :=
  { ln with
    expected := some (n + 1)
    nextPosition := ln.nextPosition + c
    counters :=
      bumpAt (bumpAt (if d = 0 then ln.counters else bumpAt (bumpAt ln.counters 7 1) 8 d) 0 1) 1 c }

/-- A notice that names a lane, with no causes. -/
def noticeOf (k : NoticeKind) (l : Option LaneId) (n : SeqNum) (detail : Nat) : Notice where
  kind := k
  lane := l
  seq := n
  detail := BitVec.ofNat 16 detail
  causes := { detected := false, splice := false, junction := false, conceal := false }

/-- The lane as it enters RUNNING from ARMED or STALLED (R8, R25, R48, R49, R106): expectation absent, history cleared,
the starvation timer reloaded; from ARMED, positions, last entered value and gate begun afresh too. -/
def Lane.started (ln : Lane) : Lane :=
  { ln with
    state := .running false
    expected := none
    nextPosition := if ln.state = .armed then 0 else ln.nextPosition
    timer := { remaining := ln.config.starvationTime, counting := decide (ln.config.starvationTime ≠ 0) }
    det :=
      { ln.det with
        h1 := 0, h2 := 0, valid := 0, lastEntered := if ln.state = .armed then none else ln.det.lastEntered }
    gate := if ln.state = .armed then .opened else ln.gate }

/-- The samples of a parcel cancelled one after another against bank b, and the phase index after the last (R39, R41):
sample j, at phase index i, loses the bank's entry scaled by the gain, clamped to the sample range, and the index moves to
the next entry; a sample at one of the offsets `splices` begins again at phase index `start`. -/
def cancelRun (b : HumBank) (gain start : Nat) (splices : List Nat) : Nat → Nat → List Sample → List Sample × Nat
  | _, i, [] => ([], i)
  | j, i, w :: ws =>
    let i1 := if j ∈ splices then start else i
    let rest := cancelRun b gain start splices (j + 1) (if i1 + 1 = b.length then 0 else i1 + 1) ws
    (BitVec.ofInt 16 (max (-32768) (min 32767 (w.toInt - Int.tdiv ((b.entry i1).toInt * (gain : Int)) 256))) :: rest.1,
      rest.2)

/-- The hum profile a parcel entering lane x is cancelled with: the configured one on route RESTORE, and none on another
route (R39). -/
def Lane.humInForce (x : Lane) : Option ProfileId := if x.config.route = .restore then x.config.humProfile else none

/-- The values under which the samples of parcel n enter lane x, and the lane's hum state after them (R37, R39 to R41). A
swap pending on the profile is taken first, so that the other bank serves; the phase begins again at the start phase when
the lane turns to the profile or a restart is pending; and a SPLICE mark of the parcel, its span pending, begins it again
where the profile's resync source is SPLICE. -/
def State.humAtEntry (s : State) (x : Lane) (n : SeqNum) (ws : List Sample) : List Sample × LaneHum :=
  match x.humInForce with
  | none => (ws, { x.hum with profile := none })
  | some k =>
    let p := s.profile k
    let b := if p.swapPending = true then p.bank p.serving.other else p.bank p.serving
    let start := p.startPhase % b.length
    let first :=
      if x.hum.profile ≠ some k ∨ x.hum.restart = true then start
      else if p.swapPending = true then x.hum.index % b.length
      else x.hum.index
    let splices :=
      if p.resync = .splice then
        (x.marks.filter fun (m : MarkEntry) => decide (m.kind = .splice ∧ m.spanPending = true ∧ m.seq = n)).map
          fun (m : MarkEntry) => min m.offset (ws.length - 1)
      else []
    let run := cancelRun b x.config.humGain start splices 0 first ws
    (run.1, { profile := some k, index := run.2, restart := false })

/-- The profiles after a parcel has entered lane x, which stood as `s.lane l` before the event (R37, R38): the pending swap
of the profile in force is taken, and that of the profile the lane turns away from, if no other lane uses it. -/
abbrev ProfilesAfterEntry (s t : State) (l : LaneId) (x : Lane) : Prop :=
  ∀ k : ProfileId, t.profile k =
    if (s.profile k).swapPending = true
        ∧ (x.humInForce = some k
          ∨ (x.hum.profile = some k ∧ x.humInForce ≠ some k ∧ ∀ m : LaneId, m ≠ l → (s.lane m).uses k = false))
      then { s.profile k with serving := (s.profile k).serving.other, swapPending := false }
    else s.profile k

/-- A SAMPLES parcel of `ws` with sequence number n, d parcels missing before it, is offered and enters the hold line of
lane l, which stands as x when it enters (R16, R19, R25, R60, R61, R70 to R72, R78). With the whole parcel entered the part
is u: the parcel stands at the tail of the hold line under the next position, with its cancelled values, and the lane's
expectation, positions, marks and counters have moved by it. From u departure goes as far as it can, and the head leaves
the intake queue. -/
abbrev EntersHoldLine (s : State) (l : LaneId) (x : Lane) (g : Generator) (n : SeqNum) (ws : List Sample)
    (resumed : Bool) (rest : List InParcel) (d : Nat) : Prop :=
  ∃ u t : State,
    exec .offer s = .next t
      ∧ t = { u.depart l with intake := s.intake.headGone rest .taken }
      ∧ u.lane l =
          { x with
            expected := some (n + 1)
            nextPosition := x.nextPosition + ws.length
            marks := x.marks.map fun (m : MarkEntry) =>
              if m.kind = .splice ∧ (m.seq = n ∨ 8388608 ≤ (m.seq - (n + 1)).toNat) then { m with spanPending := false }
              else m
            counters := (u.lane l).counters
            hum := (s.humAtEntry x n ws).2
            det := (u.lane l).det
            held :=
              x.held ++
                [{ seq := n, firstPosition := x.nextPosition, count := ws.length, departed := 0
                   route := x.config.route, fallback := x.config.fallback, resumed := resumed
                   samples := (s.humAtEntry x n ws).1 }] }
      ∧ u.delivery.samples = s.delivery.samples ∧ u.waitList = s.waitList
      ∧ (t.lane l).state = .running false ∧ (t.lane l).allocation = x.allocation
      ∧ (t.lane l).expected = some (n + 1)
      ∧ (t.lane l).nextPosition = x.nextPosition + ws.length
      ∧ (t.lane l).counter .parcelsEntered = satBump (x.counter .parcelsEntered) 1
      ∧ (t.lane l).counter .samplesEntered = satBump (x.counter .samplesEntered) ws.length
      ∧ (t.lane l).counter .gaps = satBump (x.counter .gaps) (if d = 0 then 0 else 1)
      ∧ (t.lane l).counter .missingParcels = satBump (x.counter .missingParcels) d
      ∧ OtherLanesKept s t l ∧ ProfilesAfterEntry s t l x
      ∧ WorkKept { s with intake := s.intake.headGone rest .taken, generator := g } t l
      ∧ t.intake.headWaiting = false

/-- The SEQUENCE_GAP notice of a gap of d parcels, and none for d = 0 (R19). -/
def State.gapNoticed (s : State) (l : LaneId) (n : SeqNum) (d : Nat) : State :=
  if d = 0 then s else s.issue (noticeOf .sequenceGap (some l) n (min 65535 d))

/-! ### The steps of an entry -/

/-- The part with lane l's entry replaced. -/
def State.withLane (s : State) (l : LaneId) (ln : Lane) : State := { s with lanes := s.lanes.set l ln }

/-- The largest distance from 0 of a parcel's samples as they arrived (R63). -/
def rawPeak (ws : List Sample) : Nat := ws.foldl (fun m v => max m v.toInt.natAbs) 0

/-- The parcel is a hit of the level watch (R63): between limits A and B, or, with A above B, at least A or at most B. -/
def LaneConfig.levelHit (c : LaneConfig) (ws : List Sample) : Bool :=
  c.watchEnable
    && decide
      (if c.watchLimitA ≤ c.watchLimitB then c.watchLimitA ≤ rawPeak ws ∧ rawPeak ws ≤ c.watchLimitB
        else c.watchLimitA ≤ rawPeak ws ∨ rawPeak ws ≤ c.watchLimitB)

/-- The part after the level watch of an entry (R63): a hit is counted, and LEVEL carries the peak. -/
def State.levelNoticed (s : State) (l : LaneId) (n : SeqNum) (ws : List Sample) : State :=
  if (s.lane l).config.levelHit ws = true then
    (s.withLane l ((s.lane l).counted .levelHits 1)).issue (noticeOf .level (some l) n (min 32767 (rawPeak ws)))
  else s

/-- The part after the continuity step of an entry with d parcels missing (R19), the SPLICE marks of the parcel having
lost their pending spans (R60, R61): a gap is counted and noticed, and the expectation becomes n + 1. -/
def State.gapFollowed (s : State) (l : LaneId) (n : SeqNum) (d : Nat) : State :=
  let t : State :=
    if d = 0 then s
    else
      (s.withLane l (((s.lane l).counted .gaps 1).counted .missingParcels d)).issue
        (noticeOf .sequenceGap (some l) n (min 65535 d))
  t.withLane l
    { t.lane l with
      expected := some (n + 1)
      marks := (t.lane l).marks.map fun (m : MarkEntry) =>
        if m.kind = .splice ∧ m.seq = n then { m with spanPending := false } else m }

/-- A late SPLICE mark is counted and noticed (R61). -/
def State.lateNoticed (s : State) (l : LaneId) (n : SeqNum) : State :=
  (s.withLane l ((s.lane l).counted .lateSplices 1)).issue (noticeOf .spliceLate (some l) n 0)

/-- The part after the late marks of the entry of parcel n are found (R61): each SPLICE mark with its span pending that
lies behind the expectation n + 1 loses it, and is counted and noticed in list order. -/
def State.lateMarksFound (s : State) (l : LaneId) (n : SeqNum) : State :=
  let late := fun (m : MarkEntry) =>
    decide (m.kind = .splice ∧ m.spanPending = true ∧ 8388608 ≤ (m.seq - (n + 1)).toNat)
  ((s.lane l).marks.filter late).foldl (fun t (m : MarkEntry) => t.lateNoticed l m.seq)
    (s.withLane l
      { s.lane l with
        marks := (s.lane l).marks.map fun (m : MarkEntry) => if late m = true then { m with spanPending := false } else m })

/-- The part after trailing mark m of lane l has left, ms being those behind it (R105): a SPLICE mark with its span pending
is late (R61), and the mark joins the sample queue. -/
def State.trailingPlaced (s : State) (l : LaneId) (m : MarkEntry) (ms : List MarkEntry) : State :=
  let t := s.withLane l { s.lane l with marks := ms }
  let u : State := if m.kind = .splice ∧ m.spanPending = true then t.lateNoticed l m.seq else t
  { u with delivery := { u.delivery with samples := u.delivery.samples ++ [.mark l m.kind m.seq m.offset m.value] } }

/-- The offsets of the splice samples of parcel n of `count` samples (R60). -/
def Lane.spliceSamples (ln : Lane) (n : SeqNum) (count : Nat) : List Nat :=
  (ln.marks.filter fun (m : MarkEntry) => decide (m.kind = .splice ∧ m.spanPending = true ∧ m.seq = n)).map
    fun (m : MarkEntry) => min m.offset (count - 1)

/-- The forced spans that begin at offset i of a parcel of `count` samples (R59): CONCEAL over the parcel at its first
sample, JUNCTION of J samples at the first sample after a gap, SPLICE of W samples at each splice sample (R60, R62, R64). -/
def LaneConfig.spansAt (c : LaneConfig) (conceal gap : Bool) (splices : List Nat) (count i : Nat) : List (Causes × Nat) :=
  (if conceal = true ∧ i = 0 then [({ detected := false, splice := false, junction := false, conceal := true }, count)]
    else [])
  ++ (if gap = true ∧ i = 0 then
      [({ detected := false, splice := false, junction := true, conceal := false }, c.junctionWidth)] else [])
  ++ (splices.filter fun o => decide (o = i)).map fun _ =>
      ({ detected := false, splice := true, junction := false, conceal := false }, c.spliceWidth)

/-- One sample w at offset i of a RESTORE parcel enters (R16 step 3): a splice sample restarts the phase, the sample is
cancelled (R39, R41), its cancelled value is classified by the detector with the spans that begin there (R52), and it is
appended at the next position (R72). -/
def State.sampleEntered (s : State) (l : LaneId) (c : LaneConfig) (n : SeqNum) (splices : List Nat)
    (spans : Nat → List (Causes × Nat)) (count : Nat) (resumed : Bool) (w : Sample) (i : Nat) : State :=
  let t : State := if i ∈ splices then s.spliceResync l c.humProfile else s
  let v := t.cancelled l c.humProfile c.humGain w
  let u := (t.humAdvance l c.humProfile).detect l c n (spans i) v
  u.withLane l
    { u.lane l with
      held :=
        if i = 0 then
          (u.lane l).held ++
            [{ seq := n, firstPosition := (u.lane l).nextPosition, count := count, departed := 0, route := c.route
               fallback := c.fallback, resumed := resumed, samples := [v] }]
        else updateLast (fun (p : HeldParcel) => { p with samples := p.samples ++ [v] }) (u.lane l).held
      nextPosition := (u.lane l).nextPosition + 1 }

/-- The part with a parcel of `count` samples counted as entered (R16 step 4). -/
def State.entryCounted (s : State) (l : LaneId) (count : Nat) : State :=
  s.withLane l (((s.lane l).counted .parcelsEntered 1).counted .samplesEntered count)

/-- A parcel on route RESTORE has entered lane l of part s, d parcels missing before it, and departure has not begun (R16):
the level watch, the continuity step, the history cleared at a gap (R62), the late marks, the hum profile taken up (R39),
the samples one after another, and the counts. -/
def State.restoreEntered (s : State) (l : LaneId) (n : SeqNum) (ws : List Sample) (resumed : Bool) (d : Nat) : State :=
  let c := (s.lane l).config
  let splices := (s.lane l).spliceSamples n ws.length
  let spans := c.spansAt (c.levelHit ws && decide (c.watchAction = .conceal)) (decide (d ≠ 0)) splices ws.length
  let t := (s.levelNoticed l n ws).gapFollowed l n d
  let u : State :=
    if d = 0 then t
    else t.withLane l { t.lane l with det := { (t.lane l).det with h1 := 0, h2 := 0, valid := 0 } }
  let begun := (u.lateMarksFound l n).humBegin l c.humProfile n
  (ws.zipIdx.foldl (fun v (x : Sample × Nat) => v.sampleEntered l c n splices spans ws.length resumed x.1 x.2)
    begun).entryCounted l ws.length

/-- A parcel on route PASS, MUTE or GENERATE has entered lane l of part s, d parcels missing before it, and departure has
not begun (R16, R70): the level watch, the continuity step, the late marks, the open run cut (R57) and released if its last
sample has departed (R90), the history cleared, no profile in force (R39), the whole parcel appended, and the counts. -/
def State.plainEntered (s : State) (l : LaneId) (n : SeqNum) (ws : List Sample) (resumed : Bool) (d : Nat) : State :=
  let t := ((s.levelNoticed l n ws).gapFollowed l n d).lateMarksFound l n
  let u := (State.releaseRuns
    (t.withLane l
      { t.lane l with
        det :=
          { h1 := 0, h2 := 0, valid := 0, lastEntered := ws.getLast?, calmCount := 0, calmStart := none
            forcedRemainder := 0
            forcedCauses := { detected := false, splice := false, junction := false, conceal := false }
            runs := (t.lane l).det.runs.map fun (r : RunRecord) =>
              if r.growing = true then
                { r with growing := false, state := if r.state = .opened then .unrepaired .noAnchor else r.state }
              else r } }) l).humBegin l none n
  (u.withLane l
    { u.lane l with
      held := (u.lane l).held ++
        [{ seq := n, firstPosition := (u.lane l).nextPosition, count := ws.length, departed := 0
           route := (u.lane l).config.route, fallback := (u.lane l).config.fallback, resumed := resumed, samples := ws }]
      nextPosition := (u.lane l).nextPosition + ws.length }).entryCounted l ws.length

end Sys2Proof.Machine
end

