-- ==== Sys2Proof/Certificates/Slice0/Obligations.lean ====
section
/-! DEFINITION. The statements for the provers: what every command and event of the part does, and the laws that every
step keeps. -/

open Sys2Proof Sys2Proof.Machine

/-! ### The machine -/

/-- A step takes the command at the front of the queue and carries it out on the part with the queue's rest; the queue
is the model's own (log 16). On an empty queue a millisecond passes (log 2): every counting timer falls by one, the
timers that reach 0 put their expiries in the queue, and nothing else changes. While RESET is asserted no timer counts.
-/
def Obligations.StepTakesTheFrontCommand : Prop :=
  (∀ (c : Instr) (rest : List Instr) (s : State),
    s.pending = c :: rest → step s = exec c { s with pending := rest })
  ∧ ∀ s : State, s.pending = [] →
    ∃ t, step s = .next t
      ∧ (s.resetLine = true → t = s)
      ∧ (s.resetLine = false →
          t = { s with
                lanes := t.lanes
                delivery := { s.delivery with timer := t.delivery.timer }
                pending := t.pending }
          ∧ (∀ l : LaneId,
              t.lane l =
                { s.lane l with
                  timer :=
                    { remaining :=
                        if (s.lane l).timer.counting = true then (s.lane l).timer.remaining - 1
                        else (s.lane l).timer.remaining
                      counting := (s.lane l).timer.counting } })
          ∧ t.delivery.timer =
              { remaining :=
                  if s.delivery.timer.counting = true then s.delivery.timer.remaining - 1
                  else s.delivery.timer.remaining
                counting := s.delivery.timer.counting }
          ∧ (∀ c : Instr,
              c ∈ t.pending ↔
                (∃ l : LaneId, c = .starvationExpiry l ∧ (s.lane l).timer.counting = true
                    ∧ (s.lane l).timer.remaining ≤ 1)
                  ∨ (c = .batchExpiry ∧ s.delivery.timer.counting = true ∧ s.delivery.timer.remaining ≤ 1)))

/-- Every command and event answers a next state in every state, leaves the commands that wait, and only the two events
of the RESET line move that line. Two clauses are the model's own choice: that an event which is not due answers a next
state all the same (log 1), and the queue of waiting commands, which no command touches (log 16). -/
def Obligations.EveryCommandAnswersANextState : Prop :=
  ∀ (c : Instr) (s : State),
    ∃ t, exec c s = .next t ∧ t.pending = s.pending
      ∧ (c ≠ .resetAssert → c ≠ .powerOnStart → t.resetLine = s.resetLine)

/-- The RESET line (R171). While it is asserted nothing changes but the level of the line DELIVERY_READY, and
INTAKE_HOLD is deasserted; asserting it discards all state of the part; and at the start every block takes its power-on
values. Three things here are the model's choice: that the part in reset stands at its power-on values and follows the
level of DELIVERY_READY (log 6), the states of the two receivers (log 4) and the place set aside for a REPLY (log 8). -/
def Obligations.ResetLineClearsThePart : Prop :=
  (∀ (c : Instr) (s : State), s.resetLine = true → c ≠ .resetAssert → c ≠ .powerOnStart →
    s.intakeHold = false
      ∧ (∀ level, c = .deliveryReadyChange level → exec c s = .next { s with deliveryReady := level })
      ∧ ((∀ level, c ≠ .deliveryReadyChange level) → exec c s = .next s))
  ∧ (∀ s : State,
    ∃ t, exec .resetAssert s = .next t
      ∧ t = { State.reset with resetLine := true, deliveryReady := s.deliveryReady, pending := s.pending }
      ∧ t.control.queue = [] ∧ t.delivery.messages = [] ∧ t.intakeHold = false)
  ∧ (∀ s : State,
    ∃ t, exec .powerOnStart s = .next t
      ∧ t.resetLine = false ∧ t.deliveryReady = s.deliveryReady ∧ t.pending = s.pending
      ∧ (∀ l : LaneId,
          t.lane l =
            { state := .off
              config :=
                { route := .restore, startOption := .atNextParcel, lookahead := 256, parcelLimit := 512, slack := 256
                  onset := 2048, release := 512, quietCount := 8, repairLimit := 128, mergeDistance := 4
                  fallback := .hold, spliceWidth := 48, junctionWidth := 16, humProfile := none, humGain := 256
                  hissEnable := false, rampTable := 0, openThreshold := 600, closeThreshold := 300, holdCount := 4
                  gateNotices := false, watchEnable := false, watchAction := .notify, watchLimitA := 0
                  watchLimitB := 0, starvationTime := 100 }
              allocation := 0
              expected := none
              nextPosition := 0
              timer := { remaining := 0, counting := false }
              marks := []
              counters := Vector.replicate 16 0
              hum := { profile := none, index := 0, restart := false }
              det :=
                { h1 := 0, h2 := 0, valid := 0, lastEntered := none, calmCount := 0, calmStart := none
                  forcedRemainder := 0
                  forcedCauses := { detected := false, splice := false, junction := false, conceal := false }
                  runs := [] }
              held := []
              assembly := .empty
              gate := .opened })
      ∧ t.freePlaces = 24576
      ∧ (∀ k : ProfileId,
          t.profile k =
            { bankA := { length := 16, entries := [] }, bankB := { length := 16, entries := [] }, serving := .a
              startPhase := 0, resync := .none, swapPending := false })
      ∧ (∀ (k : ProfileId) (which : BankId) (i : Nat), ((t.profile k).bank which).entry i = 0)
      ∧ t.usedRuns = [] ∧ t.fullNoticed = false
      ∧ t.repair = { queue := [], inProgress := none }
      ∧ t.waitList = []
      ∧ (∀ (r : RampId) (i : Fin 16), (t.ramps[r])[i] = 16 * (i.val + 1))
      ∧ t.delivery.batch = [])
  ∧ ∀ s : State,
    ∃ t, exec .powerOnStart s = .next t
      ∧ t.generator =
          { lane := none, setting := { kind := .shift15, first := 1, second := 0 }, next := 1, single := false
            period := 0, countdown := 0 }
      ∧ t.checker =
          { lane := none, setting := { kind := .shift15, first := 1, second := 0 }, state := .search, wordCount := 0
            errorCount := 0, wordSaturated := false, errorSaturated := false }
      ∧ t.intake =
          { link := .down, port := .accepting, queue := [], headWaiting := false, pace := .go, lastSent := none
            sending := none, overrunNoticed := false, drops := 0, haltLevel := 40, resumeLevel := 16
            form := .byParcel, haltOnDamage := false, counters := Vector.replicate 11 0
            receiver := { inStep := false, idleRun := 0, errorRun := 0, parcel := none } }
      ∧ t.intakeHold = false
      ∧ t.delivery =
          { link := .down, samples := [], messages := [], transmission := .none, form := .byParcel, lastPace := .go
            pace := .go, batch := [], timer := { remaining := 0, counting := false }, batchTime := 20
            commitPending := false, lossFlag := false, counters := Vector.replicate 12 0, replyReserved := false
            receiver := { inStep := false, idleRun := 0, errorRun := 0, parcel := none } }
      ∧ t.control = { queue := [], lost := false, counters := Vector.replicate 6 0 }

/-! ### Lane commands -/

/-- CONFIGURE_LANE (R4): its four tests in order, and the record replaced whole. The waiting intake head of the lane is
offered again (R140). That a refused CONFIGURE_LANE does not offer it again is the model's reading of R140 and R167 (log
20). -/
def Obligations.ConfigureLaneReplacesTheRecord : Prop :=
  ∀ (s : State) (tag : Word) (args : List Word) (rest : List ControlParcel),
    TakeReady s tag 0x10 args rest →
      (args.length ≠ 27 → exec .configureLane s = .next (s.denied tag rest .badLength))
      ∧ (∀ (w : Word) (ws : List Word), args = w :: ws → ws.length = 26 →
          (15 < w.toNat ∨ ¬ ∃ c : LaneConfig, ConfigInRange c ∧ c.words = ws) →
            exec .configureLane s = .next (s.denied tag rest .badArgument))
      ∧ (∀ (l : LaneId) (c : LaneConfig), args = BitVec.ofNat 16 l.val :: c.words → ConfigInRange c →
          exec .configureLane s = .next (
            if (s.lane l).state ≠ .off
                ∧ (c.startOption ≠ (s.lane l).config.startOption ∨ c.lookahead ≠ (s.lane l).config.lookahead
                  ∨ c.parcelLimit ≠ (s.lane l).config.parcelLimit ∨ c.slack ≠ (s.lane l).config.slack
                  ∨ (c.route ≠ (s.lane l).config.route
                    ∧ (c.route ∈ [Route.echo, Route.check] ∨ (s.lane l).config.route ∈ [Route.echo, Route.check])))
              then s.denied tag rest .laneActive
            else if (s.lane l).state ≠ .off ∧ c.route = .generate ∧ (s.lane l).config.route ≠ .generate
                ∧ s.generator.lane ≠ some l
              then s.denied tag rest .notAttached
            else
              State.done
                { s with
                  lanes := s.lanes.set l { s.lane l with config := c }
                  intake := s.intake.offeredAgain l }
                tag rest []))

/-- START_LANE (R7): its five tests in order; the lane takes C places and becomes ARMED, its expectation absent and its
timer stopped; the REPLY carries C and the free places that remain. -/
def Obligations.StartLaneTakesItsPlaces : Prop :=
  ∀ (s : State) (tag : Word) (args : List Word) (rest : List ControlParcel),
    TakeReady s tag 0x11 args rest →
      (args.length ≠ 1 → exec .startLane s = .next (s.denied tag rest .badLength))
      ∧ (∀ w : Word, args = [w] → 15 < w.toNat → exec .startLane s = .next (s.denied tag rest .badArgument))
      ∧ (∀ (l : LaneId) (need : Nat), args = [BitVec.ofNat 16 l.val] →
          need =
            (if (s.lane l).config.route ∈ [Route.echo, Route.check] then 0
              else (s.lane l).config.lookahead + (s.lane l).config.parcelLimit + (s.lane l).config.slack) →
          exec .startLane s = .next (
            if (s.lane l).state ≠ .off then s.denied tag rest .laneActive
            else if ((s.lane l).config.route = .generate ∧ s.generator.lane ≠ some l)
                ∨ ((s.lane l).config.route = .check ∧ s.checker.lane ≠ some l)
              then s.denied tag rest .notAttached
            else if s.freePlaces < need then s.denied tag rest .noSpace
            else
              let t : State :=
                { s with
                  lanes := s.lanes.set l
                    { s.lane l with
                      state := .armed
                      allocation := need
                      expected := none
                      timer := { remaining := (s.lane l).timer.remaining, counting := false } }
                  intake := s.intake.offeredAgain l }
              t.done tag rest [BitVec.ofNat 16 need, BitVec.ofNat 16 t.freePlaces]))

/-- STOP_LANE on a lane that is not RUNNING (R9): nothing but the outcome LANE_IDLE on OFF, at once OFF from ARMED and
STALLED with a LANE_IDLE notice, and a drain's target made OFF. The first two clauses are its tests of the argument. The
answer LANE_IDLE is not counted as a refusal (log 12); the notice is issued with a place set aside for the REPLY (log
8). -/
def Obligations.StopLaneAtRestOrDraining : Prop :=
  ∀ (s : State) (tag : Word) (args : List Word) (rest : List ControlParcel),
    TakeReady s tag 0x12 args rest →
      (args.length ≠ 1 → exec .stopLane s = .next (s.denied tag rest .badLength))
      ∧ (∀ w : Word, args = [w] → 15 < w.toNat → exec .stopLane s = .next (s.denied tag rest .badArgument))
      ∧ (∀ l : LaneId, args = [BitVec.ofNat 16 l.val] →
          ((s.lane l).state = .off → exec .stopLane s = .next (s.replied tag rest .laneIdle false []))
          ∧ ((s.lane l).state = .armed ∨ (s.lane l).state = .stalled →
              exec .stopLane s = .next (
                State.done
                  (State.issue
                    { s.inTake with
                      lanes := s.lanes.set l
                        { s.lane l with
                          state := .off
                          allocation := 0
                          timer := { remaining := (s.lane l).timer.remaining, counting := false }
                          hum := { profile := none, index := 0, restart := false }
                          det :=
                            { h1 := 0, h2 := 0, valid := 0, lastEntered := none, calmCount := 0, calmStart := none
                              forcedRemainder := 0
                              forcedCauses := { detected := false, splice := false, junction := false, conceal := false }
                              runs := (s.lane l).det.runs }
                          gate := .opened }
                      intake := s.intake.offeredAgain l }
                    { kind := .laneIdle, lane := some l, seq := 0, detail := 0
                      causes := { detected := false, splice := false, junction := false, conceal := false } })
                  tag rest []))
          ∧ ((s.lane l).state = .draining .armed →
              exec .stopLane s = .next (
                State.done
                  { s with
                    lanes := s.lanes.set l
                      { s.lane l with
                        state := .draining .off
                        timer := { remaining := (s.lane l).timer.remaining, counting := false } }
                    intake := s.intake.offeredAgain l }
                  tag rest []))
          ∧ ((s.lane l).state = .draining .off → exec .stopLane s = .next (s.done tag rest [])))

/-- STOP_LANE on a RUNNING lane (R9, R10): the drain toward OFF begins. In the event the lane becomes OFF, its places
returned, if no held work is left, and stays DRAINING toward OFF if some is; no run of the lane grows any more; the
other lanes stay as they were, but for the phase index of a lane whose phase profile is swapped. The second clause is
that of a lane with nothing held and no run: it becomes OFF with LANE_IDLE and what its leaving brings about (R38,
R128). That LANE_IDLE comes after HUM_SWAPPED and CHECK_LOST is the model's choice (log 9), and so is the place set
aside for the REPLY while they are issued (log 8). -/
def Obligations.StopLaneDrainsARunningLane : Prop :=
  ∀ (s : State) (tag : Word) (rest : List ControlParcel) (l : LaneId) (p : Bool),
    TakeReady s tag 0x12 [BitVec.ofNat 16 l.val] rest → (s.lane l).state = .running p →
      (∃ t, exec .stopLane s = .next t
        ∧ ((t.lane l).state = .off ∧ (t.lane l).allocation = 0 ∨ (t.lane l).state = .draining .off
            ∧ (t.lane l).allocation = (s.lane l).allocation)
        ∧ ((t.lane l).state = .off ↔ (t.lane l).held = [] ∧ (t.lane l).assembly = .empty ∧ (t.lane l).marks = [])
        ∧ (p = false → ∀ r ∈ (t.lane l).det.runs, r.growing = false)
        ∧ (t.lane l).config = (s.lane l).config ∧ (t.lane l).timer.counting = false
        ∧ OtherLanesKept s t l ∧ ProfilesAfterLeaving s t l
        ∧ (∃ ps, t.delivery.samples = s.delivery.samples ++ ps)
        ∧ t.ramps = s.ramps ∧ t.pending = s.pending
        ∧ t.intake = { s.intake with headWaiting := t.intake.headWaiting }
        ∧ RepliedAfterNotices s t tag rest [])
      ∧ ((s.lane l).held = [] → (s.lane l).det.runs = [] → (s.lane l).assembly = .empty → (s.lane l).marks = [] →
          exec .stopLane s = .next (
            State.done
              (State.issue
                (State.leftBy
                  { s.inTake with
                    lanes := s.lanes.set l
                      { s.lane l with
                        state := .off
                        allocation := 0
                        timer := { remaining := (s.lane l).timer.remaining, counting := false }
                        hum := { profile := none, index := 0, restart := false }
                        det :=
                          { h1 := 0, h2 := 0, valid := 0, lastEntered := none, calmCount := 0, calmStart := none
                            forcedRemainder := 0
                            forcedCauses := { detected := false, splice := false, junction := false, conceal := false }
                            runs := [] }
                        gate := .opened }
                    intake := s.intake.offeredAgain l }
                  l (s.lane l).hum.profile)
                { kind := .laneIdle, lane := some l, seq := 0, detail := 0
                  causes := { detected := false, splice := false, junction := false, conceal := false } })
              tag rest []))

/-- ABORT_LANE (R11, R93, R113): a lane that is not OFF becomes OFF in the event, its work discarded without count or
notice and its work in the shared units removed. A lane that was RUNNING has left RUNNING, and that alone issues notices
(R38, R128: `State.leftBy`): no LANE_IDLE notice is issued, and everything else of the part is as it was. That
HUM_SWAPPED comes before CHECK_LOST is the model's choice (log 9), and so is the place set aside for the REPLY meanwhile
(log 8). -/
def Obligations.AbortLaneDiscardsTheLane : Prop :=
  ∀ (s : State) (tag : Word) (args : List Word) (rest : List ControlParcel),
    TakeReady s tag 0x13 args rest →
      (args.length ≠ 1 → exec .abortLane s = .next (s.denied tag rest .badLength))
      ∧ (∀ w : Word, args = [w] → 15 < w.toNat → exec .abortLane s = .next (s.denied tag rest .badArgument))
      ∧ (∀ l : LaneId, args = [BitVec.ofNat 16 l.val] →
          ((s.lane l).state = .off → exec .abortLane s = .next (s.denied tag rest .laneIdle))
          ∧ ((s.lane l).state ≠ .off →
              exec .abortLane s = .next (
                let u : State :=
                  { s.inTake with
                    lanes := s.lanes.set l
                      { state := .off
                        config := (s.lane l).config
                        allocation := 0
                        expected := none
                        nextPosition := (s.lane l).nextPosition
                        timer := { remaining := (s.lane l).timer.remaining, counting := false }
                        marks := []
                        counters := (s.lane l).counters
                        hum := { profile := none, index := 0, restart := false }
                        det :=
                          { h1 := 0, h2 := 0, valid := 0, lastEntered := none, calmCount := 0, calmStart := none
                            forcedRemainder := 0
                            forcedCauses := { detected := false, splice := false, junction := false, conceal := false }
                            runs := [] }
                        held := []
                        assembly := .empty
                        gate := .opened }
                    fullNoticed := s.fullNoticed && (s.lane l).det.runs.isEmpty
                    repair :=
                      { queue := s.repair.queue.filter fun e => decide (e.lane ≠ l)
                        inProgress := s.repair.inProgress.filter fun e => decide (e.lane ≠ l) }
                    waitList := s.waitList.filter fun m => decide (m ≠ l)
                    intake := s.intake.offeredAgain l }
                State.done (if (s.lane l).state.isRunning = true then u.leftBy l (s.lane l).hum.profile else u)
                  tag rest [])))

/-- READ_LANE (R12): the 74 result words, every value as it stands in the take, and nothing changed. CLEAR_LANE_COUNTERS
(R13): the 16 counters of the lane become 0 and nothing else of the part changes. -/
def Obligations.ReadLaneReportsAndCountersAreCleared : Prop :=
  (∀ (s : State) (tag : Word) (args : List Word) (rest : List ControlParcel),
    TakeReady s tag 0x14 args rest →
      (args.length ≠ 1 → exec .readLane s = .next (s.denied tag rest .badLength))
      ∧ (∀ w : Word, args = [w] → 15 < w.toNat → exec .readLane s = .next (s.denied tag rest .badArgument))
      ∧ (∀ (l : LaneId) (ln : Lane), args = [BitVec.ofNat 16 l.val] → ln = s.lane l →
          exec .readLane s = .next (s.done tag rest
            (([ln.config.route.code, ln.config.startOption.code, ln.config.lookahead, ln.config.parcelLimit,
                ln.config.slack, ln.config.onset, ln.config.release, ln.config.quietCount, ln.config.repairLimit,
                ln.config.mergeDistance, ln.config.fallback.code, ln.config.spliceWidth, ln.config.junctionWidth,
                profileCode ln.config.humProfile, ln.config.humGain, ln.config.hissEnable.toNat,
                ln.config.rampTable.val, ln.config.openThreshold, ln.config.closeThreshold, ln.config.holdCount,
                ln.config.gateNotices.toNat, ln.config.watchEnable.toNat, ln.config.watchAction.code,
                ln.config.watchLimitA, ln.config.watchLimitB, ln.config.starvationTime]
              ++ [ln.state.code, ln.state.drainTargetCode, ln.state.stallPending.toNat, ln.allocation,
                (ln.held.map fun (p : HeldParcel) => p.samples.length).sum, ln.assembly.collected, ln.marks.length]
              ++ (match ln.expected with
                  | none => [65535, 0]
                  | some e => [e.toNat / 65536, e.toNat % 65536])
              ++ [ln.nextPosition / 65536, ln.nextPosition % 65536, ln.det.runs.length, ln.gate.index, ln.hum.index,
                ln.timer.remaining, ln.timer.counting.toNat]
              ++ ln.counters.toList.flatMap fun (c : Counter) => [c.toNat / 65536, c.toNat % 65536]).map
                (BitVec.ofNat 16)))))
  ∧ ∀ (s : State) (tag : Word) (args : List Word) (rest : List ControlParcel),
    TakeReady s tag 0x15 args rest →
      (args.length ≠ 1 → exec .clearLaneCounters s = .next (s.denied tag rest .badLength))
      ∧ (∀ w : Word, args = [w] → 15 < w.toNat →
          exec .clearLaneCounters s = .next (s.denied tag rest .badArgument))
      ∧ (∀ l : LaneId, args = [BitVec.ofNat 16 l.val] →
          exec .clearLaneCounters s = .next (
            State.done { s with lanes := s.lanes.set l { s.lane l with counters := Vector.replicate 16 0 } } tag rest []))

/-! ### Hum and ramp commands -/

/-- WRITE_HUM (R32): its three tests in order; then entry i of the named bank takes its value for the run of entries
from the first index on, and nothing else of the part changes. The bank is in the form that every step keeps (HumLaw).
READ_HUM (R33): the seven settings of the profile and the run of entries asked for, with nothing changed. WRITE_RAMP
(R111): its two tests in order; the 16 entries of the table take the new gains and nothing else changes. READ_RAMP
(R112): the 16 gains in order, with nothing changed. -/
def Obligations.BanksAndTablesAreWrittenAndRead : Prop :=
  ((∀ (s : State) (tag : Word) (args : List Word) (rest : List ControlParcel),
    TakeReady s tag 0x20 args rest →
      (args.length < 4 → exec .writeHum s = .next (s.denied tag rest .badLength))
      ∧ (∀ (p b i : Word) (vs : List Word), args = p :: b :: i :: vs → vs ≠ [] →
          (7 < p.toNat ∨ 1 < b.toNat ∨ 1023 < i.toNat ∨ 1024 < i.toNat + vs.length) →
            exec .writeHum s = .next (s.denied tag rest .badArgument))
      ∧ (∀ (k : ProfileId) (which : BankId) (i : Nat) (vs : List Word),
          args = BitVec.ofNat 16 k.val :: (if which = .a then 0 else 1) :: BitVec.ofNat 16 i :: vs → vs ≠ [] →
          i < 1024 → i + vs.length ≤ 1024 →
            ((s.profile k).swapPending = true ∨ (s.profile k).serving = which →
              exec .writeHum s = .next (s.denied tag rest .bankBusy))
            ∧ ((s.profile k).swapPending = false → (s.profile k).serving ≠ which →
                ((s.profile k).bank which).wf = true →
              ∃ v : HumBank,
                exec .writeHum s = .next (
                  State.done { s with profiles := s.profiles.set k ((s.profile k).setBank which v) } tag rest [])
                ∧ v.length = ((s.profile k).bank which).length
                ∧ ∀ j : Nat, v.entry j =
                    if i ≤ j ∧ j < i + vs.length then vs.getD (j - i) 0 else ((s.profile k).bank which).entry j)))
  ∧ ∀ (s : State) (tag : Word) (args : List Word) (rest : List ControlParcel),
    TakeReady s tag 0x21 args rest →
      (args.length ≠ 4 → exec .readHum s = .next (s.denied tag rest .badLength))
      ∧ (∀ p b i n : Word, args = [p, b, i, n] →
          (7 < p.toNat ∨ 1 < b.toNat ∨ 1023 < i.toNat ∨ 249 < n.toNat ∨ 1024 < i.toNat + n.toNat) →
            exec .readHum s = .next (s.denied tag rest .badArgument))
      ∧ (∀ (k : ProfileId) (which : BankId) (i n : Nat) (p : HumProfile),
          args = [BitVec.ofNat 16 k.val, if which = .a then 0 else 1, BitVec.ofNat 16 i, BitVec.ofNat 16 n] →
          i < 1024 → n ≤ 249 → i + n ≤ 1024 → p = s.profile k →
            exec .readHum s = .next (s.done tag rest
              ([BitVec.ofNat 16 (if p.serving = .a then 2 else if p.swapPending = true then 1 else 0),
                BitVec.ofNat 16 (if p.serving = .b then 2 else if p.swapPending = true then 1 else 0),
                BitVec.ofNat 16 p.bankA.length, BitVec.ofNat 16 p.bankB.length, BitVec.ofNat 16 p.startPhase,
                BitVec.ofNat 16 p.resync.code, BitVec.ofNat 16 p.swapPending.toNat]
              ++ (List.range n).map fun j => (p.bank which).entry (i + j)))))
  ∧ (∀ (s : State) (tag : Word) (args : List Word) (rest : List ControlParcel),
    TakeReady s tag 0x30 args rest →
      (args.length ≠ 17 → exec .writeRamp s = .next (s.denied tag rest .badLength))
      ∧ (∀ (w : Word) (ws : List Word), args = w :: ws → ws.length = 16 →
          (3 < w.toNat ∨ ∃ g ∈ ws, 256 < g.toNat) → exec .writeRamp s = .next (s.denied tag rest .badArgument))
      ∧ (∀ (r : RampId) (g : Vector Nat 16),
          args = BitVec.ofNat 16 r.val :: g.toList.map (BitVec.ofNat 16) → (∀ x ∈ g.toList, x ≤ 256) →
            exec .writeRamp s = .next (State.done { s with ramps := s.ramps.set r g } tag rest [])))
  ∧ ∀ (s : State) (tag : Word) (args : List Word) (rest : List ControlParcel),
    TakeReady s tag 0x31 args rest →
      (args.length ≠ 1 → exec .readRamp s = .next (s.denied tag rest .badLength))
      ∧ (∀ w : Word, args = [w] → 3 < w.toNat → exec .readRamp s = .next (s.denied tag rest .badArgument))
      ∧ (∀ r : RampId, args = [BitVec.ofNat 16 r.val] →
          exec .readRamp s = .next (s.done tag rest ((List.finRange 16).map fun i => BitVec.ofNat 16 (s.ramps[r])[i])))

/-- SET_HUM (R34): its three tests in order; a length other than 0 becomes the length of the bank that is not SERVING,
and the start phase and the resync source take their new values. COMMIT_HUM (R36) and the swap it takes when the profile
has no user (R35): the other bank serves, every lane whose phase profile it is has its phase index reduced modulo the
new length, and HUM_SWAPPED names lane NONE, issued with a place set aside for the REPLY (log 8). RESYNC_HUM (R43):
restart pending becomes yes on every lane configured for the profile, and the REPLY counts them. -/
def Obligations.HumProfileIsSetCommittedAndResynced : Prop :=
  (∀ (s : State) (tag : Word) (args : List Word) (rest : List ControlParcel),
    TakeReady s tag 0x22 args rest →
      (args.length ≠ 4 → exec .setHum s = .next (s.denied tag rest .badLength))
      ∧ (∀ p n f r : Word, args = [p, n, f, r] →
          (7 < p.toNat ∨ (1 ≤ n.toNat ∧ n.toNat ≤ 15) ∨ 1024 < n.toNat ∨ 1023 < f.toNat ∨ 3 < r.toNat) →
            exec .setHum s = .next (s.denied tag rest .badArgument))
      ∧ (∀ (k : ProfileId) (n f : Nat) (r : ResyncSource) (p : HumProfile),
          args = [BitVec.ofNat 16 k.val, BitVec.ofNat 16 n, BitVec.ofNat 16 f, BitVec.ofNat 16 r.code] →
          (n = 0 ∨ (16 ≤ n ∧ n ≤ 1024)) → f < 1024 → p = s.profile k →
            exec .setHum s = .next (
              if n ≠ 0 ∧ p.swapPending = true then s.denied tag rest .bankBusy
              else
                State.done
                  { s with
                    profiles := s.profiles.set k
                      { bankA :=
                          if n ≠ 0 ∧ p.serving = .b then { length := n, entries := p.bankA.entries } else p.bankA
                        bankB :=
                          if n ≠ 0 ∧ p.serving = .a then { length := n, entries := p.bankB.entries } else p.bankB
                        serving := p.serving
                        startPhase := f
                        resync := r
                        swapPending := p.swapPending } }
                  tag rest [])))
  ∧ (∀ (s : State) (tag : Word) (args : List Word) (rest : List ControlParcel),
    TakeReady s tag 0x23 args rest →
      (args.length ≠ 1 → exec .commitHum s = .next (s.denied tag rest .badLength))
      ∧ (∀ w : Word, args = [w] → 7 < w.toNat → exec .commitHum s = .next (s.denied tag rest .badArgument))
      ∧ (∀ (k : ProfileId) (p : HumProfile), args = [BitVec.ofNat 16 k.val] → p = s.profile k →
          exec .commitHum s = .next (
            if p.swapPending = true then s.denied tag rest .swapPending
            else if ∃ l : LaneId, (s.lane l).state.isRunning = true ∧ (s.lane l).hum.profile = some k then
              State.done { s with profiles := s.profiles.set k { p with swapPending := true } } tag rest [0]
            else
              let served := if p.serving = .a then p.bankB else p.bankA
              State.done
                (State.issue
                  { s.inTake with
                    profiles := s.profiles.set k { p with serving := if p.serving = .a then .b else .a }
                    lanes := s.lanes.map fun (ln : Lane) =>
                      if ln.hum.profile = some k then
                        { ln with hum := { ln.hum with index := ln.hum.index % served.length } }
                      else ln }
                  { kind := .humSwapped, lane := none, seq := 0, detail := BitVec.ofNat 16 k.val
                    causes := { detected := false, splice := false, junction := false, conceal := false } })
                tag rest [1])))
  ∧ ∀ (s : State) (tag : Word) (args : List Word) (rest : List ControlParcel),
    TakeReady s tag 0x24 args rest →
      (args.length ≠ 1 → exec .resyncHum s = .next (s.denied tag rest .badLength))
      ∧ (∀ w : Word, args = [w] → 7 < w.toNat → exec .resyncHum s = .next (s.denied tag rest .badArgument))
      ∧ (∀ k : ProfileId, args = [BitVec.ofNat 16 k.val] →
          exec .resyncHum s = .next (
            if (s.profile k).resync ≠ .command then s.denied tag rest .badArgument
            else
              State.done
                { s with
                  lanes := s.lanes.map fun (ln : Lane) =>
                    if ln.config.humProfile = some k then { ln with hum := { ln.hum with restart := true } } else ln }
                tag rest
                [BitVec.ofNat 16
                  ((List.finRange 16).countP fun l => decide ((s.lane l).config.humProfile = some k))]))

/-! ### Pattern commands -/

/-- SET_PATTERN (R117): the unit's setting takes the new values; the generator's next word becomes the first of the new
sequence; the checker returns to SEARCH, a LOCKED one with CHECK_LOST detail 3, which is issued with a place set aside
for the REPLY (log 8). -/
def Obligations.SetPatternSetsAUnit : Prop :=
  ∀ (s : State) (tag : Word) (args : List Word) (rest : List ControlParcel),
    TakeReady s tag 0x40 args rest →
      (args.length ≠ 4 → exec .setPattern s = .next (s.denied tag rest .badLength))
      ∧ (∀ u k a b : Word, args = [u, k, a, b] →
          (1 < u.toNat ∨ 2 < k.toNat ∨ (k = 0 ∧ (a.toNat = 0 ∨ 32767 < a.toNat))) →
            exec .setPattern s = .next (s.denied tag rest .badArgument))
      ∧ (∀ (k : PatternKind) (a b : Word),
          args = [0, BitVec.ofNat 16 k.code, a, b] →
          (k = .shift15 → 1 ≤ a.toNat ∧ a.toNat ≤ 32767) →
            exec .setPattern s = .next (
              State.done
                { s with
                  generator := { s.generator with setting := { kind := k, first := a, second := b }, next := a } }
                tag rest []))
      ∧ (∀ (k : PatternKind) (a b : Word),
          args = [1, BitVec.ofNat 16 k.code, a, b] →
          (k = .shift15 → 1 ≤ a.toNat ∧ a.toNat ≤ 32767) →
            exec .setPattern s = .next (
              let t : State :=
                { s with
                  checker := { s.checker with setting := { kind := k, first := a, second := b }, state := .search } }
              if s.checker.state.isLocked = true then
                State.done
                  (t.inTake.issue
                    { kind := .checkLost, lane := s.checker.lane, seq := 0, detail := 3
                      causes := { detected := false, splice := false, junction := false, conceal := false } })
                  tag rest []
              else t.done tag rest []))

/-- ATTACH_GENERATOR (R118): its three tests in order; the lane named, or NONE, is attached and the sequence restarts.
INJECT_ERROR (R121): its three tests in order, and the three modes. -/
def Obligations.GeneratorIsAttachedAndMadeToErr : Prop :=
  (∀ (s : State) (tag : Word) (args : List Word) (rest : List ControlParcel),
    TakeReady s tag 0x41 args rest →
      (args.length ≠ 1 → exec .attachGenerator s = .next (s.denied tag rest .badLength))
      ∧ (∀ w : Word, args = [w] → 15 < w.toNat → w.toNat ≠ 255 →
          exec .attachGenerator s = .next (s.denied tag rest .badArgument))
      ∧ (∀ new : Option LaneId,
          args = [BitVec.ofNat 16 (laneCode new)] →
            exec .attachGenerator s = .next (
              if ∃ l : LaneId, s.generator.lane = some l ∧ (s.lane l).state ≠ .off
                  ∧ (s.lane l).config.route = .generate ∧ new ≠ some l
                then s.denied tag rest .inUse
              else
                State.done { s with generator := { s.generator with lane := new, next := s.generator.setting.first } }
                  tag rest [])))
  ∧ ∀ (s : State) (tag : Word) (args : List Word) (rest : List ControlParcel),
    TakeReady s tag 0x44 args rest →
      (args.length ≠ 2 → exec .injectError s = .next (s.denied tag rest .badLength))
      ∧ (∀ m p : Word, args = [m, p] →
          exec .injectError s = .next (
            if 2 < m.toNat ∨ (m = 2 ∧ p = 0) then s.denied tag rest .badArgument
            else if s.generator.lane = none then s.denied tag rest .notAttached
            else
              State.done
                { s with
                  generator :=
                    if m = 0 then { s.generator with single := false, period := 0, countdown := 0 }
                    else if m = 1 then { s.generator with single := true }
                    else { s.generator with period := p.toNat, countdown := p.toNat } }
                tag rest []))

/-- ATTACH_CHECKER (R119): its three tests in order; the lane named, or NONE, is attached and the checker returns to
SEARCH, a LOCKED one with CHECK_LOST detail 3, which is issued with a place set aside for the REPLY (log 8).
LATCH_CHECKER (R127): the ten result words, and then the counts and saturation flags cleared, all else kept. -/
def Obligations.CheckerIsAttachedAndLatched : Prop :=
  (∀ (s : State) (tag : Word) (args : List Word) (rest : List ControlParcel),
    TakeReady s tag 0x42 args rest →
      (args.length ≠ 1 → exec .attachChecker s = .next (s.denied tag rest .badLength))
      ∧ (∀ w : Word, args = [w] → 15 < w.toNat → w.toNat ≠ 255 →
          exec .attachChecker s = .next (s.denied tag rest .badArgument))
      ∧ (∀ new : Option LaneId,
          args = [BitVec.ofNat 16 (laneCode new)] →
            exec .attachChecker s = .next (
              let t : State := { s with checker := { s.checker with lane := new, state := .search } }
              if ∃ l : LaneId, s.checker.lane = some l ∧ (s.lane l).state ≠ .off
                  ∧ (s.lane l).config.route = .check ∧ new ≠ some l
                then s.denied tag rest .inUse
              else if s.checker.state.isLocked = true then
                State.done
                  (t.inTake.issue
                    { kind := .checkLost, lane := new, seq := 0, detail := 3
                      causes := { detected := false, splice := false, junction := false, conceal := false } })
                  tag rest []
              else t.done tag rest [])))
  ∧ ∀ (s : State) (tag : Word) (args : List Word) (rest : List ControlParcel),
    TakeReady s tag 0x43 args rest →
      (args ≠ [] → exec .latchChecker s = .next (s.denied tag rest .badLength))
      ∧ (args = [] →
          exec .latchChecker s = .next (
            State.done
              { s with
                checker :=
                  { s.checker with wordCount := 0, errorCount := 0, wordSaturated := false, errorSaturated := false } }
              tag rest
              ([(match s.checker.state with | .search => 0 | .verify _ _ => 1 | .locked _ _ => 2),
                (match s.checker.lane with | some l => l.val | none => 255),
                (match s.generator.lane with | some l => l.val | none => 255),
                (match s.checker.state with | .search => 0 | .verify _ n => n | .locked _ _ => 24),
                (match s.checker.state with | .search => 0 | .verify _ _ => 0 | .locked _ h => h.count .mismatched),
                s.checker.wordCount.toNat / 65536, s.checker.wordCount.toNat % 65536,
                s.checker.errorCount.toNat / 65536, s.checker.errorCount.toNat % 65536,
                s.checker.wordSaturated.toNat + 2 * s.checker.errorSaturated.toNat].map (BitVec.ofNat 16))))

/-! ### Commands of the ports and of the part -/

/-- SET_INTAKE (R143): its two tests in order; the settings take their values, the pace state is set again from the
queue and the new levels, overrun noticed is cleared below the new halt level, a form that newly includes parcels makes
the last sent pace absent, and a PACE parcel starts where R142 calls for one. RESUME_INTAKE (R136): a HALTED port
becomes ACCEPTING, its drops reported and its pace set again; an ACCEPTING port is left as it is and 0 reported. -/
def Obligations.IntakeIsSetAndResumed : Prop :=
  (∀ (s : State) (tag : Word) (args : List Word) (rest : List ControlParcel),
    TakeReady s tag 0x50 args rest →
      (args.length ≠ 4 → exec .setIntake s = .next (s.denied tag rest .badLength))
      ∧ (∀ h r f d : Word, args = [h, r, f, d] →
          (h.toNat < 8 ∨ 48 < h.toNat ∨ h.toNat ≤ r.toNat ∨ f.toNat < 1 ∨ 3 < f.toNat ∨ 1 < d.toNat) →
            exec .setIntake s = .next (s.denied tag rest .badArgument))
      ∧ (∀ (h r : Nat) (f : PaceForm) (d : Bool),
          args = [BitVec.ofNat 16 h, BitVec.ofNat 16 r, BitVec.ofNat 16 f.code, if d then 1 else 0] →
          8 ≤ h → h ≤ 48 → r < h →
            ∃ t p, exec .setIntake s = .next (State.done { s with intake := t } tag rest [])
              ∧ p = (if s.intake.port = .halted ∨ h ≤ s.intake.queue.length then Pace.stop
                  else if s.intake.queue.length ≤ r then .go else s.intake.pace)
              ∧ t =
                { s.intake with
                  haltLevel := h
                  resumeLevel := r
                  form := f
                  haltOnDamage := d
                  pace := p
                  overrunNoticed := s.intake.overrunNoticed && decide (h ≤ s.intake.queue.length)
                  lastSent := t.lastSent
                  sending := t.sending }
              ∧ t.lastSent = (if f ≠ .byLine ∧ s.intake.form = .byLine then none else s.intake.lastSent)
              ∧ t.sending =
                (if s.intake.sending = none ∧ f ≠ .byLine ∧ s.intake.link = .up ∧ t.lastSent ≠ some p then some p
                  else s.intake.sending)
              ∧ (∀ u : State, u.intake = t → u.resetLine = false →
                  (u.intakeHold = true ↔ f ≠ .byParcel ∧ p = .stop))))
  ∧ ∀ (s : State) (tag : Word) (args : List Word) (rest : List ControlParcel),
    TakeReady s tag 0x51 args rest →
      (args ≠ [] → exec .resumeIntake s = .next (s.denied tag rest .badLength))
      ∧ (args = [] → s.intake.port = .accepting → exec .resumeIntake s = .next (s.done tag rest [0]))
      ∧ (args = [] → s.intake.port = .halted →
          ∃ t p, exec .resumeIntake s = .next
              (State.done { s with intake := t } tag rest [BitVec.ofNat 16 s.intake.drops])
            ∧ p = (if s.intake.haltLevel ≤ s.intake.queue.length then Pace.stop
                else if s.intake.queue.length ≤ s.intake.resumeLevel then .go else s.intake.pace)
            ∧ t = { s.intake with port := .accepting, pace := p, sending := t.sending }
            ∧ t.sending =
              (if s.intake.sending = none ∧ s.intake.form ≠ .byLine ∧ s.intake.link = .up
                  ∧ s.intake.lastSent ≠ some p then some p
                else s.intake.sending))

/-- READ_PORTS (R169): the 84 result words, every value as it stands in the take, and nothing changed. -/
def Obligations.ReadPortsReportsTheSharedState : Prop :=
  ∀ (s : State) (tag : Word) (args : List Word) (rest : List ControlParcel) (two : Counter → List Nat),
    TakeReady s tag 0x52 args rest → (∀ c, two c = [c.toNat / 65536, c.toNat % 65536]) →
      (args ≠ [] → exec .readPorts s = .next (s.denied tag rest .badLength))
      ∧ (args = [] →
          exec .readPorts s = .next (s.done tag rest
            (([(if s.intake.link = .up then 1 else 0), (if s.intake.port = .halted then 1 else 0),
                s.intake.queue.length, (if s.intake.pace = .go then 1 else 0), s.intake.haltLevel,
                s.intake.resumeLevel, s.intake.form.code, s.intake.haltOnDamage.toNat]
              ++ s.intake.counters.toList.flatMap two
              ++ [(if s.delivery.link = .up then 1 else 0), s.delivery.samples.length, s.delivery.messages.length,
                s.delivery.batch.length, s.delivery.commitPending.toNat, s.delivery.lossFlag.toNat,
                (if s.delivery.pace = .go then 1 else 0), (if s.delivery.lastPace = .go then 1 else 0),
                s.deliveryReady.toNat, s.delivery.form.code, s.delivery.batchTime]
              ++ s.delivery.counters.toList.flatMap two
              ++ [24576 - (s.lanes.toList.map Lane.allocation).sum,
                (s.lanes.toList.map fun (ln : Lane) => ln.det.runs.length).sum, s.fullNoticed.toNat,
                s.repair.queue.length, s.repair.inProgress.isSome.toNat, s.waitList.length, rest.length]
              ++ s.control.counters.toList.flatMap two).map (BitVec.ofNat 16))))

/-- SET_DELIVERY (R155): its two tests in order; the pace form and batch time take their values and the delivery pace is
worked out afresh (R153); a counting batch timer keeps its remaining time. FLUSH_NOTICES (R159): nothing for an empty
batch; the batch committed ahead of the REPLY into a second free place; without one, commit pending and the timer
stopped. -/
def Obligations.DeliveryIsSetAndNoticesAreFlushed : Prop :=
  (∀ (s : State) (tag : Word) (args : List Word) (rest : List ControlParcel),
    TakeReady s tag 0x53 args rest →
      (args.length ≠ 2 → exec .setDelivery s = .next (s.denied tag rest .badLength))
      ∧ (∀ f t : Word, args = [f, t] → (f.toNat < 1 ∨ 3 < f.toNat ∨ t.toNat < 1 ∨ 255 < t.toNat) →
          exec .setDelivery s = .next (s.denied tag rest .badArgument))
      ∧ (∀ (f : PaceForm) (n : Nat), args = [BitVec.ofNat 16 f.code, BitVec.ofNat 16 n] → 1 ≤ n → n ≤ 255 →
          exec .setDelivery s = .next (
            State.done
              { s with
                delivery :=
                  { s.delivery with
                    form := f
                    batchTime := n
                    pace :=
                      if (f ≠ .byLine ∧ s.delivery.lastPace = .stop) ∨ (f ≠ .byParcel ∧ s.deliveryReady = false)
                        then .stop else .go } }
              tag rest [])))
  ∧ ∀ (s : State) (tag : Word) (args : List Word) (rest : List ControlParcel),
    TakeReady s tag 0x54 args rest →
      (args ≠ [] → exec .flushNotices s = .next (s.denied tag rest .badLength))
      ∧ (args = [] →
          exec .flushNotices s = .next (
            if s.delivery.batch = [] then s.done tag rest [0, 0]
            else if s.delivery.messages.length + 1 < 8 then
              State.done
                { s with
                  delivery :=
                    { s.delivery with
                      messages := s.delivery.messages ++ [.notice s.delivery.lossFlag s.delivery.batch]
                      batch := []
                      timer := { remaining := 0, counting := false }
                      commitPending := false
                      lossFlag := false } }
                tag rest [BitVec.ofNat 16 s.delivery.batch.length, 0]
            else
              State.done
                { s with
                  delivery :=
                    { s.delivery with commitPending := true, timer := { remaining := 0, counting := false } } }
                tag rest [0, BitVec.ofNat 16 s.delivery.batch.length]))

/-- RESET_PART (R170): every lane OFF with its record kept, pending swaps cancelled, repair work and wait list emptied,
the pattern unit, the intake port, the delivery port and the control counters as their rules give, and the REPLY built
after all of it and counted as 1. -/
def Obligations.ResetPartClearsTheWork : Prop :=
  ∀ (s : State) (tag : Word) (args : List Word) (rest : List ControlParcel),
    TakeReady s tag 0x60 args rest →
      (args ≠ [] → exec .resetPart s = .next (s.denied tag rest .badLength))
      ∧ (args = [] →
          ∃ t, exec .resetPart s = .next t
            ∧ (∀ l : LaneId, t.lane l = { State.reset.lane l with config := (s.lane l).config })
            ∧ t.freePlaces = 24576
            ∧ (∀ k : ProfileId, t.profile k = { s.profile k with swapPending := false })
            ∧ t.fullNoticed = false ∧ t.repair = { queue := [], inProgress := none } ∧ t.waitList = []
            ∧ t.ramps = s.ramps
            ∧ t.generator =
                { s.generator with
                  next := s.generator.setting.first
                  single := false
                  countdown := if s.generator.period = 0 then s.generator.countdown else s.generator.period }
            ∧ t.checker =
                { s.checker with
                  state := .search, wordCount := 0, errorCount := 0, wordSaturated := false, errorSaturated := false }
            ∧ t.intake =
                { s.intake with
                  queue := []
                  headWaiting := false
                  port := .accepting
                  drops := 0
                  overrunNoticed := false
                  pace := t.intake.pace
                  sending := t.intake.sending
                  counters := Vector.replicate 11 0 }
            ∧ (s.intake.haltLevel ≠ 0 → t.intake.pace = .go
                ∧ t.intake.sending =
                  if s.intake.sending = none ∧ s.intake.form ≠ .byLine ∧ s.intake.link = .up
                      ∧ s.intake.lastSent ≠ some .go then some .go
                  else s.intake.sending)
            ∧ t.delivery =
                { s.delivery with
                  samples := []
                  messages := s.delivery.messages ++ [.reply tag .done s.control.lost []]
                  transmission := if s.delivery.transmission = .sample then .none else s.delivery.transmission
                  batch := []
                  timer := { remaining := 0, counting := false }
                  commitPending := false
                  lossFlag := false
                  counters := Vector.replicate 12 0
                  replyReserved := false }
            ∧ t.control = { queue := rest, lost := false, counters := #v[0, 0, 0, 0, 1, 0] }
            ∧ t.resetLine = s.resetLine ∧ t.deliveryReady = s.deliveryReady ∧ t.pending = s.pending)

/-- BAD_COMMAND (R167, R177): a CONTROL parcel with a code this guide does not give, or with no payload, is refused
BAD_COMMAND, and nothing but the REPLY and its counts changes. -/
def Obligations.UnknownCommandIsRefused : Prop :=
  ∀ (s : State) (p : ControlParcel) (rest : List ControlParcel),
    s.resetLine = false → s.delivery.messages.length < 8 → s.control.queue = p :: rest →
    (p.payload = [] ∨ ∃ code args, p.payload = code :: args
      ∧ code ∉ ([0x10, 0x11, 0x12, 0x13, 0x14, 0x15, 0x20, 0x21, 0x22, 0x23, 0x24, 0x30, 0x31, 0x40, 0x41, 0x42, 0x43,
        0x44, 0x50, 0x51, 0x52, 0x53, 0x54, 0x60] : List Word)) →
      exec .badCommand s = .next (s.denied p.tag rest .badCommand)

/-! ### Events of the intake port -/

/-- INTAKE_ARRIVAL (R133 to R135): while HALTED the parcel is dropped untested; while ACCEPTING its tests are made in
the order of the table. A damaged parcel is counted and noticed with the detail of the test that failed, and with halt
on damage on the port becomes HALTED; a misdirected one is only counted. The words of a parcel are as its receiver hands
them on, at most 517 of them kept: a longer parcel fails test 1, or test 4 if its check word agrees (R174). A header
word that was not received reads as 0 (log 18). -/
def Obligations.ArrivingParcelsAreTested : Prop :=
  ∀ (s : State) (rx : List RxWord) (p : IntakePort), s.resetLine = false → s.intake.link = .up → isParcel rx = true →
    p = { s.intake with counters := bumpAt s.intake.counters 0 1 } →
      (s.intake.port = .halted →
          exec (.intakeArrival rx) s = .next
            { s with intake := { p with drops := min 65535 (p.drops + 1), counters := bumpAt p.counters 4 1 } })
      ∧ (∀ damagedAs : Nat → State,
          (∀ d : Nat, damagedAs d =
            (let q : IntakePort := { p with counters := bumpAt p.counters 2 1 }
              let b : State := State.issue { s with intake := q } (noticeOf .parcelDamaged none 0 d)
              if p.haltOnDamage = true then
                let h : IntakePort := { q with port := .halted, drops := 0, counters := bumpAt q.counters 9 1 };
                { b.issue (noticeOf .intakeHalted none 0 0) with intake := h.paced }
              else b)) →
          s.intake.port = .accepting →
            (RxWord.symbolError ∈ rx → exec (.intakeArrival rx) s = .next (damagedAs 1))
            ∧ (∀ (ws : List Word) (kind lane count : Nat), rx = receivedAs ws → kind = (ws.getD 0 0).toNat / 256 →
                lane = (ws.getD 0 0).toNat % 256 → count = (ws.getD 3 0).toNat →
                  (crc ws ≠ 0 → exec (.intakeArrival rx) s = .next (damagedAs 1))
                  ∧ (crc ws = 0 → (kind < 1 ∨ 6 < kind) → exec (.intakeArrival rx) s = .next (damagedAs 2))
                  ∧ (crc ws = 0 → 3 ≤ kind → kind ≤ 6 →
                      exec (.intakeArrival rx) s = .next
                        { s with intake := { p with counters := bumpAt p.counters 3 1 } })
                  ∧ (crc ws = 0 → kind = 1 ∨ kind = 2 →
                      (ws.length ≠ 5 + count ∨ 517 < ws.length ∨ (kind = 2 ∧ count ≠ 3)) →
                      exec (.intakeArrival rx) s = .next (damagedAs 3))
                  ∧ (crc ws = 0 → kind = 1 → ws.length = 5 → count = 0 →
                      exec (.intakeArrival rx) s = .next (damagedAs 4))
                  ∧ (crc ws = 0 → ws.length = 5 + count → ws.length ≤ 517 →
                      (kind = 1 ∧ count ≠ 0 ∧ 15 < lane)
                        ∨ (kind = 2 ∧ count = 3
                          ∧ (15 < lane ∨ (ws.getD 4 0).toNat < 1 ∨ 5 < (ws.getD 4 0).toNat ∨ 511 < (ws.getD 5 0).toNat)) →
                      exec (.intakeArrival rx) s = .next (damagedAs 5))))

/-- INTAKE_ARRIVAL of a well-formed parcel while ACCEPTING (R137, R138): admitted into fewer than 48 parcels, with the
starvation timer of a SAMPLES parcel's lane reloaded (R25) and the pace state set again (R141); dropped otherwise, the
first such drop noticed. -/
def Obligations.WellFormedParcelsAreAdmittedOrDropped : Prop :=
  ∀ (s : State) (rx : List RxWord) (x : InParcel) (p : IntakePort), s.resetLine = false → s.intake.link = .up →
    isParcel rx = true → s.intake.port = .accepting → intakeVerdict rx = .good x →
    p = { s.intake with counters := bumpAt s.intake.counters 0 1 } →
      (s.intake.queue.length < 48 →
          ∃ t, exec (.intakeArrival rx) s = .next t
            ∧ t = { s with lanes := t.lanes, intake := t.intake }
            ∧ t.intake =
                IntakePort.paced
                  { p with
                    queue := p.queue ++ [x]
                    headWaiting := if p.queue = [] then false else p.headWaiting
                    counters := bumpAt p.counters 1 1 }
            ∧ (∀ (l : LaneId) (n : SeqNum) (vs : List Sample), x = .samples l n vs →
                t.lanes = s.lanes.set l
                  { s.lane l with
                    timer :=
                      { remaining := (s.lane l).config.starvationTime
                        counting :=
                          decide ((s.lane l).state = .running false ∧ (s.lane l).config.starvationTime ≠ 0) } })
            ∧ ((∀ (l : LaneId) (n : SeqNum) (vs : List Sample), x ≠ .samples l n vs) → t.lanes = s.lanes))
      ∧ (48 ≤ s.intake.queue.length →
          exec (.intakeArrival rx) s = .next (
            let q : IntakePort := { p with counters := bumpAt p.counters 5 1, overrunNoticed := true }
            if p.overrunNoticed = true then { s with intake := q }
            else
              State.issue { s with intake := q }
                (match x with
                  | .samples l n _ => noticeOf .intakeOverrun (some l) n 0
                  | .mark l _ n _ _ => noticeOf .intakeOverrun (some l) n 0)))

/-- The link, pace and line events of the two ports: INTAKE_LINK_UP, INTAKE_LINK_DOWN (R144) and INTAKE_PACE_END (R142);
DELIVERY_LINK_UP, DELIVERY_LINK_DOWN (R160) and DELIVERY_READY_CHANGE (R153). -/
def Obligations.LinkPaceAndReadyEvents : Prop :=
  (∀ (s : State) (start : IntakePort → IntakePort), s.resetLine = false →
    (∀ p : IntakePort, start p =
      { p with
        sending :=
          if p.sending = none ∧ p.form ≠ .byLine ∧ p.link = .up ∧ p.lastSent ≠ some p.pace then some p.pace
          else p.sending }) →
      (s.intake.link = .down →
          exec .intakeLinkUp s = .next { s with intake := start { s.intake with link := .up, lastSent := none } })
      ∧ (∀ receiving : Bool, s.intake.link = .up →
          exec (.intakeLinkDown receiving) s = .next
            { s with
              intake :=
                { s.intake with
                  link := .down
                  sending := none
                  lastSent := none
                  counters :=
                    if receiving then bumpAt (bumpAt s.intake.counters 10 1) 6 1 else bumpAt s.intake.counters 10 1 } })
      ∧ (∀ x : Pace, s.intake.sending = some x →
          exec .intakePaceEnd s = .next
            { s with intake := start { s.intake with lastSent := some x, sending := none } }))
  ∧ ∀ s : State, s.resetLine = false →
    (s.delivery.link = .down →
        exec .deliveryLinkUp s = .next { s with delivery := { s.delivery with link := .up } })
    ∧ (∀ receiving : Bool, s.delivery.link = .up →
        exec (.deliveryLinkDown receiving) s = .next (
          let c1 := bumpAt s.delivery.counters 11 1
          let c2 := if s.delivery.transmission = .none then c1 else bumpAt c1 10 1
          { s with
            delivery :=
              { s.delivery with
                link := .down
                transmission := .none
                counters := if receiving then bumpAt c2 9 1 else c2 } }))
    ∧ (∀ level : Bool,
        exec (.deliveryReadyChange level) s = .next
          { s with
            deliveryReady := level
            delivery :=
              { s.delivery with
                pace :=
                  if (s.delivery.form ≠ .byLine ∧ s.delivery.lastPace = .stop)
                      ∨ (s.delivery.form ≠ .byParcel ∧ level = false)
                    then .stop else .go } })

/-! ### The offer -/

/-- OFFER of a SAMPLES parcel that its lane discards or makes wait (R15, R17 to R19, R73, R86, R87): the lane's row
decides, the oversize test comes before the order test, and a wait changes nothing but head waiting. A full lane waits
whatever its runs, unless its head sample is due, its assembly can take it and it lies in a QUEUED or REPAIRING run:
then the deadline arises (DeadlineGivesUpTheHeadRun). -/
def Obligations.OfferedSamplesAreDiscardedOrWait : Prop :=
  ∀ (s : State) (l : LaneId) (n : SeqNum) (ws : List Sample) (rest : List InParcel) (ln : Lane),
    OfferReady s (.samples l n ws) rest → ln = s.lane l →
      (ln.state = .off ∨ ln.state = .draining .off →
          exec .offer s = .next (s.headActedOn l (ln.counted .unclaimed 1) rest .discards))
      ∧ (ln.state = .armed → ln.config.startOption = .atReelStart →
          exec .offer s = .next (s.headActedOn l (ln.counted .armedDiscards 1) rest .discards))
      ∧ ((ln.state = .armed ∧ ln.config.startOption = .atNextParcel) ∨ ln.state = .stalled ∨ ln.state = .running false →
          (ln.config.parcelLimit < ws.length →
            exec .offer s = .next
              ((s.headActedOn l (ln.counted .oversize 1) rest .discards).issue
                (noticeOf .oversize (some l) n ws.length)))
          ∧ (ws.length ≤ ln.config.parcelLimit → (ln.state = .running false → ln.inOrder n) →
              ln.config.route = .echo → 32 ≤ s.delivery.samples.length →
                exec .offer s = .next { s with intake := { s.intake with headWaiting := true } }))
      ∧ (ln.state = .running false → ws.length ≤ ln.config.parcelLimit →
          (¬ ln.inOrder n →
            exec .offer s = .next
              ((s.headActedOn l (ln.counted .order 1) rest .discards).issue (noticeOf .sequenceOrder (some l) n 0)))
          ∧ (ln.inOrder n → ln.config.route ≠ .echo → ln.config.route ≠ .check →
              ln.allocation < (ln.held.map fun (p : HeldParcel) => p.samples.length).sum + ws.length →
              (∀ (p : HeldParcel) (ps : List HeldParcel) (x : Nat), ln.held = p :: ps →
                x = p.firstPosition + p.departed → ln.config.lookahead ≤ ln.nextPosition - 1 - x →
                (∀ b ms f, ln.assembly ≠ .complete b ms f) →
                  ∀ r ∈ ln.det.runs, r.first ≤ x → x ≤ r.last → r.state ≠ .queued ∧ r.state ≠ .repairing) →
                exec .offer s = .next { s with intake := { s.intake with headWaiting := true } }))
      ∧ (ln.state = .running true ∨ ln.state = .draining .armed →
          exec .offer s = .next { s with intake := { s.intake with headWaiting := true } })

/-- OFFER of a SAMPLES parcel taken by a RUNNING lane on route ECHO, copied whole into the sample queue, or CHECK, given
to the checker word by word (R17, R19, R128): the gap, the counts and the positions first. -/
def Obligations.EchoAndCheckLanesTakeParcels : Prop :=
  ∀ (s : State) (l : LaneId) (n : SeqNum) (ws : List Sample) (rest : List InParcel) (t : State) (d : Nat),
    OfferReady s (.samples l n ws) rest → (s.lane l).state = .running false →
    ws.length ≤ (s.lane l).config.parcelLimit → (s.lane l).inOrder n → d = (s.lane l).gapBefore n →
    t = (State.headActedOn s l ((s.lane l).parcelCounted n ws.length d) rest .taken).gapNoticed l n d →
      ((s.lane l).config.route = .echo → s.delivery.samples.length < 32 →
          exec .offer s = .next
            { t with
              delivery :=
                { t.delivery with
                  samples := s.delivery.samples ++
                    [.samples l
                      { repaired := false, substituted := false, gated := false, muted := false, generated := false
                        echoed := true, flushed := false, resumed := false } n ws] } })
      ∧ ((s.lane l).config.route = .check → s.checker.lane ≠ some l → exec .offer s = .next t)
      ∧ ((s.lane l).config.route = .check → s.checker.lane = some l →
          exec .offer s = .next (
            ws.foldl (fun u w => u.checkerWord n w)
              (if d = 0 then t
                else if s.checker.state.isLocked = true then
                  State.issue { t with checker := { s.checker with state := .search } }
                    (noticeOf .checkLost (some l) n 2)
                else { t with checker := { s.checker with state := .search } })))

/-- OFFER of a SAMPLES parcel taken by a RUNNING lane with a hold line that has room for it (R15, R16, R19, R73): the
parcel enters the hold line whole and in order, its samples cancelled on route RESTORE (R37, R39 to R41) and unchanged
on the others, its fields and its lane's moved by it, and departure follows; the lane goes on RUNNING, the head leaves
the intake queue, and nothing outside the lane's work changes. The second clause is that of the first parcel on route
PASS, MUTE or GENERATE with nothing held, whose samples are not yet due: all that it changes (R70, R72). Positions are
counted without wrapping (log 5). -/
def Obligations.HeldParcelsEnterTheirLane : Prop :=
  (∀ (s : State) (l : LaneId) (n : SeqNum) (ws : List Sample) (rest : List InParcel) (ln : Lane) (d : Nat),
    OfferReady s (.samples l n ws) rest → ln = s.lane l → ln.state = .running false →
    ln.config.route ≠ .echo → ln.config.route ≠ .check → ws ≠ [] →
    ws.length ≤ ln.config.parcelLimit → ln.inOrder n → d = ln.gapBefore n →
    (ln.held.map fun (p : HeldParcel) => p.samples.length).sum + ws.length ≤ ln.allocation →
      EntersHoldLine s l ln s.generator n ws false rest d)
  ∧ ∀ (s : State) (l : LaneId) (n : SeqNum) (ws : List Sample) (rest : List InParcel) (ln : Lane) (d : Nat),
    OfferReady s (.samples l n ws) rest → ln = s.lane l → ln.state = .running false →
    ln.config.route ∈ [Route.pass, Route.mute, Route.generate] → ws ≠ [] →
    ws.length ≤ ln.config.parcelLimit → ws.length ≤ ln.config.lookahead → ws.length ≤ ln.allocation →
    ln.inOrder n → d = ln.gapBefore n →
    ln.held = [] → ln.det.runs = [] → ln.marks = [] → ln.hum.profile = none → ln.config.watchEnable = false →
      exec .offer s = .next (
        State.gapNoticed
          (s.headActedOn l
            { ln.parcelCounted n ws.length d with
              det :=
                { h1 := 0, h2 := 0, valid := 0, lastEntered := ws.getLast?, calmCount := 0, calmStart := none
                  forcedRemainder := 0
                  forcedCauses := { detected := false, splice := false, junction := false, conceal := false }
                  runs := [] }
              held :=
                [{ seq := n, firstPosition := ln.nextPosition, count := ws.length, departed := 0
                   route := ln.config.route, fallback := ln.config.fallback, resumed := false, samples := ws }] }
            rest .taken) l n d)

/-- OFFER of a SAMPLES parcel that starts an ARMED lane (AT_NEXT_PARCEL) or resumes a STALLED one (R8, R15, R17, R120):
the lane enters RUNNING, and takes the parcel in the same event, with no gap found. A STALLED lane's parcel carries the
RESUMED marker; on an ARMED lane the attached generator restarts its sequence. -/
def Obligations.SamplesStartOrResumeALane : Prop :=
  ∀ (s : State) (l : LaneId) (n : SeqNum) (ws : List Sample) (rest : List InParcel) (ln : Lane) (g : Generator)
    (base : State),
    OfferReady s (.samples l n ws) rest → ln = s.lane l →
    (ln.state = .armed ∧ ln.config.startOption = .atNextParcel) ∨ ln.state = .stalled →
    ws ≠ [] → ws.length ≤ ln.config.parcelLimit →
    g = (if ln.state = .armed ∧ s.generator.lane = some l then { s.generator with next := s.generator.setting.first }
      else s.generator) →
    base = { s.headActedOn l (ln.started.parcelCounted n ws.length 0) rest .taken with generator := g } →
      (ln.config.route = .echo → s.delivery.samples.length < 32 →
          exec .offer s = .next
            { base with
              delivery :=
                { s.delivery with
                  samples := s.delivery.samples ++
                    [.samples l
                      { repaired := false, substituted := false, gated := false, muted := false, generated := false
                        echoed := true, flushed := false, resumed := decide (ln.state = .stalled) } n ws] } })
      ∧ (ln.config.route = .check →
          exec .offer s = .next
            (if s.checker.lane = some l then ws.foldl (fun u w => u.checkerWord n w) base else base))
      ∧ (ln.config.route ≠ .echo → ln.config.route ≠ .check →
          EntersHoldLine s l ln.started g n ws (decide (ln.state = .stalled)) rest 0)

/-- OFFER of a SAMPLES parcel that enters a hold line, whole and step by step: taken by a RUNNING lane with room for it,
or starting an ARMED or resuming a STALLED one (R8, R16, R19). On route RESTORE (`State.restoreEntered`): the level
watch counts and notices a hit, and with action CONCEAL forces the parcel (R63, R64); the continuity step (R19); a gap
clears the history and begins a junction span (R62); the SPLICE marks of the parcel begin their spans and those behind
it are late (R60, R61); then each sample in order is cancelled, runs through the detector (R52) and is appended. On
route PASS, MUTE or GENERATE (`State.plainEntered`): a hit is only noticed, the open run is cut, and the parcel is
appended unchanged (R57, R70). Departure follows (R78). The order of the notices of one entry is log 9. -/
def Obligations.EntryIsMadeStepByStep : Prop :=
  ∀ (s : State) (l : LaneId) (n : SeqNum) (ws : List Sample) (rest : List InParcel) (ln : Lane) (d : Nat)
    (resumed : Bool) (b : State),
    OfferReady s (.samples l n ws) rest → ln = s.lane l → ws.length ≤ ln.config.parcelLimit →
    (ln.state = .running false ∧ ln.inOrder n ∧ d = ln.gapBefore n ∧ resumed = false ∧ b = s
        ∧ (ln.held.map fun (p : HeldParcel) => p.samples.length).sum + ws.length ≤ ln.allocation)
      ∨ (((ln.state = .armed ∧ ln.config.startOption = .atNextParcel) ∨ ln.state = .stalled) ∧ d = 0
        ∧ resumed = decide (ln.state = .stalled)
        ∧ b =
          { s with
            lanes := s.lanes.set l ln.started
            generator :=
              if ln.state = .armed ∧ s.generator.lane = some l then
                { s.generator with next := s.generator.setting.first }
              else s.generator
            intake := s.intake.offeredAgain l }) →
      (ln.config.route = .restore →
          exec .offer s = .next
            { (b.restoreEntered l n ws resumed d).depart l with intake := s.intake.headGone rest .taken })
      ∧ (ln.config.route ∈ [Route.pass, Route.mute, Route.generate] →
          exec .offer s = .next
            { (b.plainEntered l n ws resumed d).depart l with intake := s.intake.headGone rest .taken })

/-- Hum cancellation at entry, step by step (R35, R37 to R41). The start of a parcel's entry with a profile takes its
pending swap, with HUM_SWAPPED naming the lane and the parcel, and begins the phase again when the lane turns to the
profile or a restart is pending; with NONE the lane has no phase profile any more; and the profile turned away from
takes a pending swap if no user is left. A splice sample begins the phase again where the resync source is SPLICE. A
sample then loses the entry at the lane's phase index scaled by the hum gain, clamped to the sample range, and the index
moves to the next entry of the SERVING bank. -/
def Obligations.HumIsCancelledAtEntry : Prop :=
  ∀ (s : State) (l : LaneId) (h : LaneHum) (withHum : LaneHum → State), h = (s.lane l).hum →
    (∀ x : LaneHum, withHum x = { s with lanes := s.lanes.set l { s.lane l with hum := x } }) →
      (∀ (k : ProfileId) (n : SeqNum) (p : HumProfile), p = s.profile k →
          (p.swapPending = true →
            s.humBegin l (some k) n =
              State.humBegin
                (State.issue
                  { s with
                    profiles := s.profiles.set k { p with serving := p.serving.other, swapPending := false }
                    lanes := s.lanes.map fun (ln : Lane) =>
                      if ln.hum.profile = some k then
                        { ln with hum := { ln.hum with index := ln.hum.index % (p.bank p.serving.other).length } }
                      else ln }
                  { kind := .humSwapped, lane := some l, seq := n, detail := BitVec.ofNat 16 k.val
                    causes := { detected := false, splice := false, junction := false, conceal := false } })
                l (some k) n)
          ∧ (p.swapPending = false → h.profile = some k →
              s.humBegin l (some k) n =
                if h.restart = true then
                  withHum
                    { profile := some k, index := p.startPhase % (p.bank p.serving).length, restart := false }
                else s)
          ∧ (p.swapPending = false → h.profile ≠ some k →
              s.humBegin l (some k) n =
                State.userLeft
                  (withHum { profile := some k, index := p.startPhase % (p.bank p.serving).length, restart := false })
                  h.profile))
      ∧ (∀ n : SeqNum, s.humBegin l none n = (withHum { h with profile := none }).userLeft h.profile)
      ∧ s.userLeft none = s
      ∧ (∀ (k : ProfileId) (p : HumProfile), p = s.profile k →
          s.userLeft (some k) =
            if p.swapPending = true ∧ ∀ m : LaneId, (s.lane m).uses k = false then
              State.issue
                { s with
                  profiles := s.profiles.set k { p with serving := p.serving.other, swapPending := false }
                  lanes := s.lanes.map fun (ln : Lane) =>
                    if ln.hum.profile = some k then
                      { ln with hum := { ln.hum with index := ln.hum.index % (p.bank p.serving.other).length } }
                    else ln }
                { kind := .humSwapped, lane := none, seq := 0, detail := BitVec.ofNat 16 k.val
                  causes := { detected := false, splice := false, junction := false, conceal := false } }
            else s)
      ∧ (∀ (k : ProfileId) (p : HumProfile) (b : HumBank) (gain : Nat) (w : Sample), p = s.profile k →
          b = p.bank p.serving →
            s.spliceResync l (some k) =
                (if p.resync = .splice then withHum { h with index := p.startPhase % b.length } else s)
              ∧ (s.cancelled l (some k) gain w).toInt =
                  max (-32768) (min 32767 (w.toInt - Int.tdiv ((b.entry h.index).toInt * (gain : Int)) 256))
              ∧ s.humAdvance l (some k) =
                  withHum { h with index := if h.index + 1 = b.length then 0 else h.index + 1 }
              ∧ (b.wf = true → h.index < b.length →
                  ((s.humAdvance l (some k)).lane l).hum.index = (h.index + 1) % b.length))
      ∧ ∀ (gain : Nat) (w : Sample),
          s.spliceResync l none = s ∧ s.cancelled l none gain w = w ∧ s.humAdvance l none = s

/-- The deadline (R86): an OFFER of a parcel that a RUNNING lane would take but has no room for, while the head of its
hold line is due and lies in a QUEUED or REPAIRING run and its assembly can take a sample, gives up that run: it becomes
UNREPAIRED LATE, its entry leaves the repair queue, its repair in progress is abandoned, and departure goes on. The
offer is then answered as it is on the part so reached, a further deadline included. -/
def Obligations.DeadlineGivesUpTheHeadRun : Prop :=
  ∀ (s : State) (l : LaneId) (n : SeqNum) (ws : List Sample) (rest : List InParcel) (ln : Lane) (p : HeldParcel)
    (ps : List HeldParcel) (r : RunRecord) (x : Nat) (u : State),
    OfferReady s (.samples l n ws) rest → ln = s.lane l → ln.state = .running false →
    ln.config.route ≠ .echo → ln.config.route ≠ .check →
    ws.length ≤ ln.config.parcelLimit → ln.inOrder n →
    ln.allocation < (ln.held.map fun (p : HeldParcel) => p.samples.length).sum + ws.length →
    ln.held = p :: ps → x = p.firstPosition + p.departed → ln.config.lookahead ≤ ln.nextPosition - 1 - x →
    (∀ b ms f, ln.assembly ≠ .complete b ms f) →
    r ∈ ln.det.runs → r.first ≤ x → x ≤ r.last → (r.state = .queued ∨ r.state = .repairing) →
    (∀ q ∈ ln.det.runs, q.first ≤ x → x ≤ q.last → q = r) →
    u =
      { s with
        repair :=
          { queue := s.repair.queue.filter fun e => decide (e ≠ { lane := l, run := r.number })
            inProgress :=
              if s.repair.inProgress = some { lane := l, run := r.number } then none else s.repair.inProgress }
        lanes := s.lanes.set l
          { ln with
            det :=
              { ln.det with
                runs := ln.det.runs.map fun (q : RunRecord) =>
                  if q.number = r.number then { q with state := .unrepaired .late, growing := false } else q } } } →
      exec .offer s = exec .offer (u.depart l)
        ∧ OfferReady (u.depart l) (.samples l n ws) rest
        ∧ ((u.depart l).lane l).state = .running false
        ∧ (∀ q ∈ ((u.depart l).lane l).det.runs, q.number = r.number → q.state = .unrepaired .late)
        ∧ OtherLanesKept s (u.depart l) l ∧ WorkKept s (u.depart l) l

/-- OFFER of a MARK parcel, for every state of its lane and every kind that does not start or end a reel (R20, R21, R24,
R61): placed in the mark list, forwarded directly, lost to a full list (its answer discard: log 11), discarded, or
waiting. -/
def Obligations.OfferedMarksAreAnswered : Prop :=
  ∀ (s : State) (l : LaneId) (k : MarkKind) (n : SeqNum) (o : Nat) (v : Word) (rest : List InParcel) (ln : Lane)
    (forwarded : Lane → State),
    OfferReady s (.mark l k n o v) rest → ln = s.lane l →
    (∀ x : Lane, forwarded x =
      (let t : State := s.headActedOn l x rest .taken;
        { t with delivery := { t.delivery with samples := t.delivery.samples ++ [.mark l k n o v] } })) →
      (ln.state = .off ∨ ln.state = .draining .off →
          exec .offer s = .next (s.headActedOn l (ln.counted .unclaimed 1) rest .discards))
      ∧ (ln.state = .armed → k ≠ .reelStart →
          exec .offer s = .next (s.headActedOn l (ln.counted .armedDiscards 1) rest .discards))
      ∧ (ln.state = .running true ∨ ln.state = .draining .armed →
          exec .offer s = .next { s with intake := { s.intake with headWaiting := true } })
      ∧ (ln.state = .running false → k = .splice ∨ k = .speed ∨ k = .cue → ln.config.route ≠ .echo →
          ln.config.route ≠ .check →
            (8 ≤ ln.marks.length →
              exec .offer s = .next
                ((s.headActedOn l (ln.counted .markListFull 1) rest .discards).issue
                  (noticeOf .markListFull (some l) n k.code)))
            ∧ (ln.marks.length < 8 → k = .splice ∧ ln.config.route = .restore ∧ ¬ ln.inOrder n →
                exec .offer s = .next
                  ((s.headActedOn l
                    { (ln.counted .marksAccepted 1).counted .lateSplices 1 with
                      marks := ln.marks ++ [{ kind := k, seq := n, offset := o, value := v, spanPending := false }] }
                    rest .taken).issue (noticeOf .spliceLate (some l) n 0)))
            ∧ (ln.marks.length < 8 → ¬ (k = .splice ∧ ln.config.route = .restore ∧ ¬ ln.inOrder n) →
                exec .offer s = .next
                  (s.headActedOn l
                    { ln.counted .marksAccepted 1 with
                      marks := ln.marks ++
                        [{ kind := k, seq := n, offset := o, value := v
                           spanPending := decide (k = .splice ∧ ln.config.route = .restore) }] }
                    rest .taken)))
      ∧ ((ln.state = .running false ∧ (ln.config.route = .echo ∨ ln.config.route = .check)) ∨ ln.state = .stalled →
          32 ≤ s.delivery.samples.length →
            exec .offer s = .next { s with intake := { s.intake with headWaiting := true } })
      ∧ (ln.state = .running false → ln.config.route = .echo ∨ ln.config.route = .check → k ≠ .reelEnd →
          s.delivery.samples.length < 32 →
            exec .offer s = .next (forwarded (ln.counted .marksAccepted 1)))
      ∧ (ln.state = .stalled → s.delivery.samples.length < 32 →
          (k = .reelStart ∨ k = .speed ∨ k = .cue →
            exec .offer s = .next (forwarded (ln.counted .marksAccepted 1)))
          ∧ (k = .splice →
              exec .offer s = .next
                ((forwarded ((ln.counted .marksAccepted 1).counted .lateSplices 1)).issue
                  (noticeOf .spliceLate (some l) n 0)))
          ∧ (k = .reelEnd →
              exec .offer s = .next
                ((forwarded
                  { ln.counted .marksAccepted 1 with
                    state := .armed, timer := { remaining := ln.timer.remaining, counting := false } }).issue
                  (noticeOf .laneArmed (some l) 0 0))))

/-- OFFER of a REEL_START or REEL_END mark to a RUNNING lane (R20 to R23, R42). REEL_START is placed like another mark
and sets restart pending where the lane's profile calls for it; so it does when a full mark list loses it (R21, R42).
REEL_END begins a drain toward ARMED: in the event the lane becomes ARMED if no held work is left, and else stays
DRAINING, with no run growing. On every route, a lane with nothing held forwards the mark, becomes ARMED and issues
LANE_ARMED beside what its leaving RUNNING brings about (R38, R128). Two things are the model's own: that the offer of a
mark lost to a full list counts as a discard (log 11), and that LANE_ARMED comes after HUM_SWAPPED and CHECK_LOST (log
9). -/
def Obligations.ReelMarksActOnARunningLane : Prop :=
  ∀ (s : State) (l : LaneId) (n : SeqNum) (o : Nat) (v : Word) (rest : List InParcel) (ln : Lane),
    ln = s.lane l → ln.state = .running false →
      (OfferReady s (.mark l .reelStart n o v) rest → ln.config.route ≠ .echo → ln.config.route ≠ .check →
        ∀ hum : LaneHum,
          hum =
            { ln.hum with
              restart :=
                ln.hum.restart
                  || decide (ln.config.route = .restore
                    ∧ ∃ k : ProfileId, ln.config.humProfile = some k ∧ (s.profile k).resync = .reelStart) } →
            (ln.marks.length < 8 →
              exec .offer s = .next
                (s.headActedOn l
                  { ln.counted .marksAccepted 1 with
                    marks := ln.marks ++ [{ kind := .reelStart, seq := n, offset := o, value := v, spanPending := false }]
                    hum := hum } rest .taken))
            ∧ (8 ≤ ln.marks.length →
                exec .offer s = .next
                  ((s.headActedOn l { ln.counted .markListFull 1 with hum := hum } rest .discards).issue
                    (noticeOf .markListFull (some l) n 1))))
      ∧ (OfferReady s (.mark l .reelEnd n o v) rest →
          (ln.config.route ≠ .echo → ln.config.route ≠ .check →
            ∀ c : IntakeCounter, c = (if ln.marks.length < 8 then .taken else .discards) →
              ∃ t, exec .offer s = .next t
                ∧ ((t.lane l).state = .armed ∨ (t.lane l).state = .draining .armed)
                ∧ ((t.lane l).state = .armed ↔
                    (t.lane l).held = [] ∧ (t.lane l).assembly = .empty ∧ (t.lane l).marks = [])
                ∧ (t.lane l).counter .marksAccepted
                    = satBump (ln.counter .marksAccepted) (if ln.marks.length < 8 then 1 else 0)
                ∧ (t.lane l).counter .markListFull
                    = satBump (ln.counter .markListFull) (if ln.marks.length < 8 then 0 else 1)
                ∧ (∀ r ∈ (t.lane l).det.runs, r.growing = false)
                ∧ (t.lane l).allocation = ln.allocation ∧ (t.lane l).expected = ln.expected
                ∧ (t.lane l).timer = { remaining := ln.timer.remaining, counting := false }
                ∧ OtherLanesKept s t l ∧ ProfilesAfterLeaving s t l
                ∧ WorkKept { s with intake := s.intake.headGone rest c } t l)
          ∧ (ln.held = [] → ln.det.runs = [] → ln.assembly = .empty → ln.marks = [] → s.delivery.samples.length < 32 →
              exec .offer s = .next
                (State.issue
                  (State.leftBy
                    { s.headActedOn l
                        { ln.counted .marksAccepted 1 with
                          state := .armed
                          timer := { remaining := ln.timer.remaining, counting := false }
                          det :=
                            { ln.det with
                              calmCount := 0, calmStart := none, forcedRemainder := 0
                              forcedCauses :=
                                { detected := false, splice := false, junction := false, conceal := false } } }
                        rest .taken with
                      delivery := { s.delivery with samples := s.delivery.samples ++ [.mark l .reelEnd n o v] } }
                    l ln.hum.profile)
                  (noticeOf .laneArmed (some l) 0 0))))

/-- OFFER of a REEL_START mark to an ARMED lane (R8, R20, R22, R42, R49, R106, R120): the lane enters RUNNING with its
positions, history, last entered value, gate and starvation timer begun afresh, and an attached generator restarts its
sequence. On a route with a hold line the mark stands at the tail of the mark list, or is lost to a full one (R21;
counted as a discard: log 11). On route ECHO or CHECK the mark is forwarded directly in the same event, or, with the
sample queue full, waits with the lane still ARMED. -/
def Obligations.ReelStartStartsAnArmedLane : Prop :=
  (∀ (s : State) (l : LaneId) (n : SeqNum) (o : Nat) (v : Word) (rest : List InParcel) (ln : Lane),
    OfferReady s (.mark l .reelStart n o v) rest → ln = s.lane l → ln.state = .armed →
    ln.config.route ≠ .echo → ln.config.route ≠ .check → ln.marks.length < 8 →
      exec .offer s = .next
        { s.headActedOn l
            { ln.counted .marksAccepted 1 with
              state := .running false
              expected := none
              nextPosition := 0
              timer :=
                { remaining := ln.config.starvationTime, counting := decide (ln.config.starvationTime ≠ 0) }
              marks := ln.marks ++ [{ kind := .reelStart, seq := n, offset := o, value := v, spanPending := false }]
              hum :=
                { ln.hum with
                  restart :=
                    ln.hum.restart
                      || decide (ln.config.route = .restore
                        ∧ ∃ k : ProfileId, ln.config.humProfile = some k ∧ (s.profile k).resync = .reelStart) }
              det := { ln.det with h1 := 0, h2 := 0, valid := 0, lastEntered := none }
              gate := .opened } rest .taken with
          generator :=
            if s.generator.lane = some l then { s.generator with next := s.generator.setting.first }
            else s.generator })
  ∧ ∀ (s : State) (l : LaneId) (n : SeqNum) (o : Nat) (v : Word) (rest : List InParcel) (ln : Lane) (g : Generator),
    OfferReady s (.mark l .reelStart n o v) rest → ln = s.lane l → ln.state = .armed →
    g = (if s.generator.lane = some l then { s.generator with next := s.generator.setting.first } else s.generator) →
      (ln.config.route ≠ .echo → ln.config.route ≠ .check → 8 ≤ ln.marks.length →
          exec .offer s = .next
            (State.issue
              { s.headActedOn l
                  { ln.started.counted .markListFull 1 with
                    hum :=
                      { ln.hum with
                        restart :=
                          ln.hum.restart
                            || decide (ln.config.route = .restore
                              ∧ ∃ k : ProfileId, ln.config.humProfile = some k ∧ (s.profile k).resync = .reelStart) } }
                  rest .discards with generator := g }
              (noticeOf .markListFull (some l) n 1)))
      ∧ (ln.config.route = .echo ∨ ln.config.route = .check →
          (s.delivery.samples.length < 32 →
            exec .offer s = .next
              { s.headActedOn l (ln.started.counted .marksAccepted 1) rest .taken with
                generator := g
                delivery := { s.delivery with samples := s.delivery.samples ++ [.mark l .reelStart n o v] } })
          ∧ (32 ≤ s.delivery.samples.length →
              exec .offer s = .next { s with intake := { s.intake with headWaiting := true } }))

/-! ### Events of the delivery port -/

/-- RETURN_ARRIVAL (R154, R165, R153): the tests in their order. A damaged parcel sets the control-lost flag; a
misdirected one is only counted; a PACE parcel sets the last PACE state and the delivery pace; a CONTROL parcel joins a
control queue of fewer than 4, or is lost. The words of a parcel are as its receiver hands them on: one of more than 517
words fails test 1, or test 4 if its check word agrees (R174). -/
def Obligations.ReturnParcelsAreTested : Prop :=
  ∀ (s : State) (rx : List RxWord) (d : DeliveryPort) (damaged : State), s.resetLine = false → s.delivery.link = .up →
    isParcel rx = true → d = { s.delivery with counters := bumpAt s.delivery.counters 5 1 } →
    damaged =
      { s with
        delivery := { d with counters := bumpAt d.counters 7 1 }
        control := { s.control with lost := true, counters := bumpAt s.control.counters 3 1 } } →
      (RxWord.symbolError ∈ rx → exec (.returnArrival rx) s = .next damaged)
      ∧ (∀ (ws : List Word) (kind count : Nat), rx = receivedAs ws → kind = (ws.getD 0 0).toNat / 256 →
          count = (ws.getD 3 0).toNat →
            (crc ws ≠ 0 → exec (.returnArrival rx) s = .next damaged)
            ∧ (crc ws = 0 → (kind < 1 ∨ 6 < kind) → exec (.returnArrival rx) s = .next damaged)
            ∧ (crc ws = 0 → kind = 1 ∨ kind = 2 ∨ kind = 4 ∨ kind = 5 →
                exec (.returnArrival rx) s = .next
                  { s with delivery := { d with counters := bumpAt d.counters 8 1 } })
            ∧ (crc ws = 0 → kind = 3 ∨ kind = 6 →
                (ws.length ≠ 5 + count ∨ 517 < ws.length ∨ (kind = 6 ∧ count ≠ 1)) →
                exec (.returnArrival rx) s = .next damaged)
            ∧ (crc ws = 0 → kind = 6 → ws.length = 6 → count = 1 →
                (1 < (ws.getD 4 0).toNat → exec (.returnArrival rx) s = .next damaged)
                ∧ (∀ x : Pace, (ws.getD 4 0).toNat = x.code →
                    exec (.returnArrival rx) s = .next
                      { s with
                        delivery :=
                          { d with
                            lastPace := x
                            pace :=
                              if (s.delivery.form ≠ .byLine ∧ x = .stop)
                                  ∨ (s.delivery.form ≠ .byParcel ∧ s.deliveryReady = false)
                                then .stop else .go
                            counters := bumpAt d.counters 6 1 } }))
            ∧ (crc ws = 0 → kind = 3 → ws.length = 5 + count →
                (257 < count → exec (.returnArrival rx) s = .next damaged)
                ∧ (count ≤ 257 →
                    exec (.returnArrival rx) s = .next
                      { s with
                        delivery := d
                        control :=
                          if s.control.queue.length < 4 then
                            { s.control with
                              queue := s.control.queue
                                ++ [{ tag := ws.getD 2 0, payload := (ws.drop 4).take count }]
                              counters := bumpAt (bumpAt s.control.counters 0 1) 1 1 }
                          else
                            { s.control with
                              lost := true, counters := bumpAt (bumpAt s.control.counters 0 1) 2 1 } })))

/-- TRANSMISSION_START (R151): with the link UP and no transmission in progress, the head of the message queue is sent
whatever the pace, and with no message waiting the head of the sample queue while the pace is GO. TRANSMISSION_END
(R152, R103, R104, R158): the head leaves its queue and is counted by its kind; a pending commit takes the place of a
message; the place of a sample parcel goes to the lane at the head of the wait list, for its next leading mark or else
for its SAMPLES parcel, after which the lane leaves the list and its departure goes on; or, with no lane waiting, a new
offer of a waiting head is due (R140). That a TRANSMISSION_START which is not due changes nothing is the model's choice
(log 1). A lane served with a trailing mark is in TrailingMarksLeaveAndLanesSettle. -/
def Obligations.TransmissionsStartAndFreeAPlace : Prop :=
  (∀ s : State, s.resetLine = false → s.delivery.link = .up → s.delivery.transmission = .none →
    (s.delivery.messages ≠ [] →
        exec .transmissionStart s = .next { s with delivery := { s.delivery with transmission := .message } })
    ∧ (s.delivery.messages = [] → s.delivery.samples ≠ [] → s.delivery.pace = .go →
        exec .transmissionStart s = .next { s with delivery := { s.delivery with transmission := .sample } })
    ∧ (s.delivery.messages = [] → s.delivery.pace = .stop → exec .transmissionStart s = .next s))
  ∧ ∀ (s : State) (d : DeliveryPort), s.resetLine = false → d = s.delivery →
    (∀ (m : Message) (rest : List Message), d.transmission = .message → d.messages = m :: rest →
        exec .transmissionEnd s = .next
          { s with
            delivery :=
              { d with
                messages := rest ++ (if d.commitPending = true then [.notice d.lossFlag d.batch] else [])
                transmission := .none
                batch := if d.commitPending = true then [] else d.batch
                timer := if d.commitPending = true then { remaining := 0, counting := false } else d.timer
                lossFlag := if d.commitPending = true then false else d.lossFlag
                commitPending := false
                counters :=
                  bumpAt d.counters (match m with | .reply _ _ _ _ => 2 | .notice _ _ => 3) 1 } })
    ∧ (∀ (p : OutParcel) (rest : List OutParcel) (c : Vector Counter 12), d.transmission = .sample →
        d.samples = p :: rest → rest.length < 32 →
        c = bumpAt d.counters (match p with | .samples _ _ _ _ => 0 | .mark _ _ _ _ _ => 1) 1 →
          (s.waitList = [] →
            exec .transmissionEnd s = .next
              { s with
                delivery := { d with samples := rest, transmission := .none, counters := c }
                intake := { s.intake with headWaiting := false } })
          ∧ (∀ (l : LaneId) (ls : List LaneId) (b : AssemblyBody) (m : MarkEntry) (ms : List MarkEntry)
                (f : SampleFlags),
              s.waitList = l :: ls → (s.lane l).assembly = .complete b (m :: ms) f →
                exec .transmissionEnd s = .next
                  { s with
                    delivery :=
                      { d with
                        samples := rest ++ [.mark l m.kind m.seq m.offset m.value]
                        transmission := .none
                        counters := c }
                    lanes := s.lanes.set l { s.lane l with assembly := .complete b ms f }
                    intake :=
                      if rest.length + 1 < 32 then { s.intake with headWaiting := false }
                      else s.intake.offeredAgain l })
          ∧ (∀ (l : LaneId) (ls : List LaneId) (b : AssemblyBody) (f : SampleFlags),
              s.waitList = l :: ls → (s.lane l).assembly = .complete b [] f →
              ((s.lane l).state.isFlushing = false ∨ (s.lane l).held ≠ [] ∨ (s.lane l).marks = []) →
                exec .transmissionEnd s = .next (
                  let u : State :=
                    { s with
                      delivery :=
                        { d with
                          samples := rest ++ [.samples l f b.seq b.samples]
                          transmission := .none
                          counters := c }
                      lanes := s.lanes.set l { s.lane l with assembly := .empty }
                      waitList := ls.filter fun m => decide (m ≠ l)
                      intake := s.intake.offeredAgain l }
                  let t := u.depart l
                  if t.delivery.samples.length < 32 then { t with intake := { t.intake with headWaiting := false } }
                  else t)))

/-! ### Notices and the batch -/

/-- A notice joins the batch (R156 to R158): below 8 entries it joins the tail, loading the batch timer of an empty
batch; the eighth entry commits the batch into a free place or makes a commit pending; with 8 entries it is discarded.
And BATCH_EXPIRY commits the batch, or makes its commit pending, when the timer has run out. While a take has a place of
the message queue set aside for its REPLY, that place is not free (log 8). -/
def Obligations.NoticesJoinTheBatchAndAreCommitted : Prop :=
  ∀ (s : State) (n : Notice) (d : DeliveryPort) (due : DeliveryPort → DeliveryPort), d = s.delivery →
    (∀ e : DeliveryPort, due e =
      if d.messages.length + (if d.replyReserved = true then 1 else 0) < 8 then
        { e with
          messages := e.messages ++ [.notice e.lossFlag e.batch]
          batch := []
          timer := { remaining := 0, counting := false }
          commitPending := false
          lossFlag := false }
      else { e with commitPending := true, timer := { remaining := 0, counting := false } }) →
      (d.batch.length < 7 →
          s.issue n =
            { s with
              delivery :=
                { d with
                  batch := d.batch ++ [n]
                  timer := if d.batch = [] then { remaining := d.batchTime, counting := true } else d.timer } })
      ∧ (d.batch.length = 7 → s.issue n = { s with delivery := due { d with batch := d.batch ++ [n] } })
      ∧ (8 ≤ d.batch.length →
          s.issue n = { s with delivery := { d with lossFlag := true, counters := bumpAt d.counters 4 1 } })
      ∧ (s.resetLine = false → d.timer = { remaining := 0, counting := true } →
          exec .batchExpiry s = .next { s with delivery := due d })

/-! ### Starvation and repair -/

/-- STARVATION_EXPIRY (R26, R25): the RUNNING lane flushes and is stall pending, or in the same event STALLED if no held
work is left, with the stall counted; and a lane with nothing held becomes STALLED at once, with LANE_STALLED carrying
its expectation beside what its leaving RUNNING brings about (R38, R128). That LANE_STALLED comes after HUM_SWAPPED and
CHECK_LOST is the model's choice (log 9). -/
def Obligations.StarvedLaneStalls : Prop :=
  ∀ (s : State) (l : LaneId) (ln : Lane), s.resetLine = false → ln = s.lane l → ln.state = .running false →
    ln.timer = { remaining := 0, counting := true } →
      (∃ t, exec (.starvationExpiry l) s = .next t
        ∧ ((t.lane l).state = .stalled ∨ (t.lane l).state = .running true)
        ∧ ((t.lane l).state = .stalled ↔ (t.lane l).held = [] ∧ (t.lane l).assembly = .empty ∧ (t.lane l).marks = [])
        ∧ (t.lane l).counter .stalls
            = satBump (ln.counter .stalls) (if (t.lane l).state = .stalled then 1 else 0)
        ∧ (∀ r ∈ (t.lane l).det.runs, r.growing = false)
        ∧ (t.lane l).allocation = ln.allocation ∧ (t.lane l).expected = ln.expected
        ∧ (t.lane l).timer = { remaining := 0, counting := false }
        ∧ OtherLanesKept s t l ∧ ProfilesIfLeft s t l ∧ WorkKept s t l)
      ∧ (ln.held = [] → ln.det.runs = [] → ln.assembly = .empty → ln.marks = [] →
            exec (.starvationExpiry l) s = .next (
              State.issue
                (State.leftBy
                  { s with
                    lanes := s.lanes.set l
                      { ln.counted .stalls 1 with
                        state := .stalled
                        timer := { remaining := 0, counting := false }
                        det :=
                          { ln.det with
                            calmCount := 0, calmStart := none, forcedRemainder := 0
                            forcedCauses :=
                              { detected := false, splice := false, junction := false, conceal := false } } }
                    intake := s.intake.offeredAgain l }
                  l ln.hum.profile)
                (noticeOf .laneStalled (some l) (ln.expected.getD 0) 0)))

/-- REPAIR_TAKE (R82) and REPAIR_COMPLETION (R83, R84): the take moves the head of the repair queue into work; with the
unit BUSY or the queue empty none is due, and that such a REPAIR_TAKE changes nothing is the model's choice (log 1). The
completion rewrites the run's held samples on the straight line between its anchors, those of parcels on other routes
kept, makes the run REPAIRED and the unit IDLE, and then the lane's samples depart as far as they can; nothing departs
from a lane whose COMPLETE assembly still waits, or whose head sample is not yet due. In the last part, every repaired
value lies between the anchors of its run, so no clamping arises. -/
def Obligations.RepairsAreTakenAndCompleted : Prop :=
  (∀ (s : State) (e : RepairEntry), s.resetLine = false →
    (∀ queue : List RepairEntry, s.repair.inProgress = none → s.repair.queue = e :: queue →
        exec .repairTake s = .next
          { s with
            repair := { queue := queue, inProgress := some e }
            lanes := s.lanes.set e.lane
              { s.lane e.lane with
                det :=
                  { (s.lane e.lane).det with
                    runs := (s.lane e.lane).det.runs.map fun (r : RunRecord) =>
                      if r.number = e.run then { r with state := .repairing } else r } } })
    ∧ (s.repair.inProgress = some e →
        (∃ t, exec .repairCompletion s = .next t
          ∧ t.repair = { queue := s.repair.queue, inProgress := none }
          ∧ (∀ r ∈ (t.lane e.lane).det.runs, r.number = e.run → r.state ≠ .repairing)
          ∧ OtherLanesKept s t e.lane ∧ ProfilesIfLeft s t e.lane ∧ WorkKept s t e.lane)
        ∧ (∀ (r : RunRecord) (lv rv : Sample) (u : State),
            ((s.lane e.lane).det.runs.find? fun (q : RunRecord) => decide (q.number = e.run)) = some r →
            r.leftAnchor = some lv → r.rightAnchor = some rv → r.first ≤ r.last →
            u =
              { s with
                repair := { queue := s.repair.queue, inProgress := none }
                intake := s.intake.offeredAgain e.lane
                lanes := s.lanes.set e.lane
                  { s.lane e.lane with
                    held := (s.lane e.lane).held.map fun (p : HeldParcel) =>
                      if p.route = .restore then
                        { p with
                          samples := p.samples.mapIdx fun i v =>
                            if r.first ≤ p.firstPosition + p.departed + i
                                ∧ p.firstPosition + p.departed + i ≤ r.last then
                              BitVec.ofInt 16 (lv.toInt
                                + Int.tdiv
                                    ((rv.toInt - lv.toInt)
                                      * ((p.firstPosition + p.departed + i - r.first + 1 : Nat) : Int))
                                    ((r.last - r.first + 2 : Nat) : Int))
                            else v }
                      else p
                    det :=
                      { (s.lane e.lane).det with
                        runs := (s.lane e.lane).det.runs.map fun (q : RunRecord) =>
                          if q.number = e.run then { q with state := .repaired, growing := false } else q } } } →
              exec .repairCompletion s = .next (u.depart e.lane)
                ∧ (∀ (b : AssemblyBody) (ms : List MarkEntry) (f : SampleFlags),
                    (s.lane e.lane).assembly = .complete b ms f → exec .repairCompletion s = .next u)
                ∧ (∀ (p : HeldParcel) (ps : List HeldParcel), (s.lane e.lane).held = p :: ps →
                    (s.lane e.lane).state.isFlushing = false →
                    (s.lane e.lane).nextPosition - 1 - (p.firstPosition + p.departed) < (s.lane e.lane).config.lookahead →
                      exec .repairCompletion s = .next u)))
    ∧ (s.repair.inProgress ≠ none ∨ s.repair.queue = [] → exec .repairTake s = .next s))
  ∧ ∀ (lv rv : Sample) (n k : Nat), 1 ≤ k → k ≤ n →
    (interpolate lv rv n k).toInt
        = lv.toInt + Int.tdiv ((rv.toInt - lv.toInt) * (k : Int)) ((n : Int) + 1)
      ∧ min lv.toInt rv.toInt ≤ (interpolate lv rv n k).toInt
      ∧ (interpolate lv rv n k).toInt ≤ max lv.toInt rv.toInt

/-! ### Departure and assembly -/

/-- Departure (R74 to R79, R89, R90, R91, R98, R99). A lane's samples depart one after another while the head sample is
due, lies in no QUEUED or REPAIRING run, and the assembly can take it; then the trailing marks and the drain or stall
test follow. The departing sample at position x first overtakes a growing run that begins at or before x; it then leaves
the hold line and joins the assembly: its own value, clean or repaired, the fallback in an UNREPAIRED run, 0 on route
MUTE, the generator's word on route GENERATE; the assembly completes with the last sample of its parcel. Last, the
records that have passed the head are released, each counted and, if unrepaired, reported. That the sample joins the
assembly before the release test, and that the trailing marks and the drain or stall test come once, after departure, is
the model's reading of R78 (log 10). -/
def Obligations.SamplesDepartInOrder : Prop :=
  (∀ (s : State) (l : LaneId) (ln : Lane) (canGo : Prop), ln = s.lane l → (∀ p ∈ ln.held, p.samples ≠ []) →
    (canGo ↔
      ∃ (p : HeldParcel) (ps : List HeldParcel), ln.held = p :: ps
        ∧ (ln.state.isFlushing = true
          ∨ ln.config.lookahead ≤ ln.nextPosition - 1 - (p.firstPosition + p.departed))
        ∧ (∀ r ∈ ln.det.runs, r.first ≤ p.firstPosition + p.departed → p.firstPosition + p.departed ≤ r.last →
            r.state ≠ .queued ∧ r.state ≠ .repairing)
        ∧ ∀ b ms f, ln.assembly ≠ .complete b ms f) →
      (canGo → s.depart l = (s.departOne l).depart l)
        ∧ (¬ canGo → s.depart l = (s.placeTrailingMarks l).settle l))
  ∧ (∀ (s : State) (l : LaneId) (ln : Lane) (p : HeldParcel) (ps : List HeldParcel) (v : Sample) (vs : List Sample)
      (x : Nat) (d : Detector) (run : Option RunRecord) (value : Sample) (fallen repaired : Bool) (b : AssemblyBody)
      (u : State),
      ln = s.lane l → ln.held = p :: ps → p.samples = v :: vs → x = p.firstPosition + p.departed →
      d =
        (match ln.det.runs.getLast? with
          | none => ln.det
          | some r =>
            if r.growing = true ∧ r.first ≤ x then
              { ln.det with
                runs := ln.det.runs.map fun (q : RunRecord) =>
                  if q.number = r.number then
                    { q with
                      state := if q.state = .opened then .unrepaired .overtaken else q.state
                      last := max q.last x }
                  else q
                calmCount := if r.last < x then ln.nextPosition - 1 - x else ln.det.calmCount }
            else ln.det) →
      run = d.runs.find? (fun (r : RunRecord) => decide (r.first ≤ x ∧ x ≤ r.last)) →
      repaired = decide (p.route = .restore ∧ ∃ r, run = some r ∧ r.state = .repaired) →
      fallen = decide (p.route = .restore ∧ ∃ r, run = some r ∧ r.state.isUnrepaired = true) →
      value =
        (if p.route = .mute then 0
          else if p.route = .generate then
            (if s.generator.lane = some l then s.generator.given else 0)
          else if fallen = true then
            (match p.fallback with
              | .zero => 0
              | .hold => ((run.bind fun (r : RunRecord) => r.leftAnchor).getD 0)
              | .keep => v)
          else v) →
      b =
        (let a : AssemblyBody :=
          match ln.assembly with
          | .building a => a
          | _ =>
            { seq := p.seq, count := p.count, route := p.route, samples := [], repairedSeen := false
              fallbackSeen := false, flushedSeen := false, resumed := p.resumed };
          { a with
            samples := a.samples ++ [value]
            repairedSeen := a.repairedSeen || repaired
            fallbackSeen := a.fallbackSeen || fallen
            flushedSeen :=
              a.flushedSeen || (ln.state.isFlushing && decide (ln.nextPosition - 1 - x < ln.config.lookahead)) }) →
      u =
        { s with
          generator :=
            if p.route = .generate ∧ s.generator.lane = some l then s.generator.advance else s.generator
          intake := s.intake.offeredAgain l
          lanes := s.lanes.set l
            { ln with
              det := d
              held := if vs = [] then ps else { p with samples := vs, departed := p.departed + 1 } :: ps
              assembly := .building b } } →
        s.departOne l = (if b.samples.length < b.count then u else u.completeAssembly l b).releaseRuns l)
  ∧ ∀ (s : State) (l : LaneId) (ln : Lane) (head : Nat), ln = s.lane l →
      head = (match ln.held with | [] => ln.nextPosition | p :: _ => p.firstPosition + p.departed) →
        ((∀ r ∈ ln.det.runs, r.growing = true ∨ head ≤ r.last) → s.releaseRuns l = s)
        ∧ (∀ (r : RunRecord) (rs : List RunRecord), ln.det.runs = r :: rs → r.growing = false → r.last < head →
            (∀ q ∈ rs, q.growing = true ∨ head ≤ q.last) →
              (r.state = .repaired →
                s.releaseRuns l =
                  { s with
                    fullNoticed := false
                    lanes := s.lanes.set l { ln.counted .runsRepaired 1 with det := { ln.det with runs := rs } } })
              ∧ (∀ why : Reason, r.state = .unrepaired why →
                  s.releaseRuns l =
                    State.issue
                      { s with
                        fullNoticed := false
                        lanes := s.lanes.set l { ln.counted .runsUnrepaired 1 with det := { ln.det with runs := rs } } }
                      { kind := .runUnrepaired, lane := some l, seq := r.firstSeq
                        detail :=
                          BitVec.ofNat 16
                            ((match why with
                                | .tooLong => 1 | .overtaken => 2 | .noAnchor => 3 | .queueFull => 4 | .late => 5) * 4096
                              + min 4095 (r.last - r.first + 1))
                        causes := r.causes }))

/-- Trailing marks and the drain and stall test (R10, R26, R61, R104, R105). A flushing lane with nothing held and its
assembly EMPTY places its marks from the head of its list while the sample queue has a place, a SPLICE mark with its
span pending being late as it is removed; with a mark left it joins the wait list. With nothing held, in assembly or in
its mark list, a DRAINING lane takes its target and a stall pending lane becomes STALLED, each with its notice; no other
lane changes. At TRANSMISSION_END the lane at the head of the wait list is served with its next trailing mark, and
leaves the list when its last one has gone; a lane whose SAMPLES parcel is placed ahead of trailing marks stays at the
head of the list. That the test comes once, after departure, is log 10, and that LANE_STALLED follows HUM_SWAPPED and
CHECK_LOST is log 9. -/
def Obligations.TrailingMarksLeaveAndLanesSettle : Prop :=
  (∀ (s : State) (l : LaneId) (ln : Lane), ln = s.lane l →
      (ln.state.isFlushing = false ∨ ln.held ≠ [] ∨ ln.assembly ≠ .empty ∨ ln.marks = [] →
          s.placeTrailingMarks l = s)
      ∧ (∀ (m : MarkEntry) (ms : List MarkEntry), ln.state.isFlushing = true → ln.held = [] → ln.assembly = .empty →
          ln.marks = m :: ms →
            (s.delivery.samples.length < 32 →
              s.placeTrailingMarks l = (s.trailingPlaced l m ms).placeTrailingMarks l)
            ∧ (32 ≤ s.delivery.samples.length →
                s.placeTrailingMarks l =
                  { s with waitList := if l ∈ s.waitList then s.waitList else s.waitList ++ [l] })))
  ∧ (∀ (s : State) (l : LaneId) (ln : Lane), ln = s.lane l →
      (ln.held ≠ [] ∨ ln.assembly ≠ .empty ∨ ln.marks ≠ [] ∨ ln.state.isFlushing = false → s.settle l = s)
      ∧ (ln.held = [] → ln.assembly = .empty → ln.marks = [] →
          (ln.state = .draining .off →
            s.settle l =
              State.issue
                { s with
                  lanes := s.lanes.set l
                    { ln with
                      state := .off
                      allocation := 0
                      timer := { remaining := ln.timer.remaining, counting := false }
                      hum := { profile := none, index := 0, restart := false }
                      det :=
                        { h1 := 0, h2 := 0, valid := 0, lastEntered := none, calmCount := 0, calmStart := none
                          forcedRemainder := 0
                          forcedCauses := { detected := false, splice := false, junction := false, conceal := false }
                          runs := ln.det.runs }
                      gate := .opened }
                  intake := s.intake.offeredAgain l }
                (noticeOf .laneIdle (some l) 0 0))
          ∧ (ln.state = .draining .armed →
              s.settle l =
                State.issue
                  { s with
                    lanes := s.lanes.set l
                      { ln with state := .armed, timer := { remaining := ln.timer.remaining, counting := false } }
                    intake := s.intake.offeredAgain l }
                  (noticeOf .laneArmed (some l) 0 0))
          ∧ (ln.state = .running true →
              s.settle l =
                State.issue
                  (State.leftBy
                    { s with
                      lanes := s.lanes.set l
                        { ln.counted .stalls 1 with
                          state := .stalled, timer := { remaining := ln.timer.remaining, counting := false } }
                      intake := s.intake.offeredAgain l }
                    l ln.hum.profile)
                  (noticeOf .laneStalled (some l) (ln.expected.getD 0) 0))))
  ∧ ∀ (s : State) (d : DeliveryPort) (p : OutParcel) (rest : List OutParcel) (c : Vector Counter 12) (l : LaneId)
      (ls : List LaneId) (ln : Lane) (freed : State), s.resetLine = false → d = s.delivery → d.transmission = .sample →
      d.samples = p :: rest → rest.length < 32 →
      c = bumpAt d.counters (match p with | .samples _ _ _ _ => 0 | .mark _ _ _ _ _ => 1) 1 →
      freed = { s with delivery := { d with samples := rest, transmission := .none, counters := c } } →
      s.waitList = l :: ls → ln = s.lane l → ln.state.isFlushing = true → ln.held = [] →
        (∀ (m : MarkEntry) (ms : List MarkEntry), ln.assembly = .empty → ln.marks = m :: ms →
            (ms ≠ [] →
              exec .transmissionEnd s = .next (
                let t := freed.trailingPlaced l m ms
                if rest.length + 1 < 32 then { t with intake := { t.intake with headWaiting := false } } else t))
            ∧ (ms = [] →
                exec .transmissionEnd s = .next (
                  let t := (freed.trailingPlaced l m ms).settle l
                  let u : State := { t with waitList := ls.filter fun m => decide (m ≠ l) }
                  if rest.length + 1 < 32 then { u with intake := { u.intake with headWaiting := false } } else u)))
        ∧ (∀ (b : AssemblyBody) (f : SampleFlags), ln.assembly = .complete b [] f → ln.marks ≠ [] →
            exec .transmissionEnd s = .next
              { freed with
                delivery := { freed.delivery with samples := rest ++ [.samples l f b.seq b.samples] }
                lanes := s.lanes.set l { ln with assembly := .empty }
                intake :=
                  if rest.length + 1 < 32 then { s.intake with headWaiting := false } else s.intake.offeredAgain l })

/-- Completion (R100 to R103, R107 to R109): the gate takes its new state from the parcel's peak, with its notice; the
samples are scaled by the ramp at the new gain index; the flags say what the parcel's samples went through; the marks at
or before the parcel go ahead of it in list order; and as many of these parts as there are free places join the sample
queue. With a part left, the assembly stays COMPLETE and the lane joins the placement wait list. -/
def Obligations.AssemblyCompletesAndIsPlaced : Prop :=
  ∀ (s : State) (l : LaneId) (b : AssemblyBody) (ln : Lane) (gate : Gate) (gain : Nat) (f : SampleFlags)
    (scaled : List Sample) (lead later : List MarkEntry) (parts : List OutParcel) (room : Nat) (u : State),
    ln = s.lane l →
    gate =
      (if ln.config.hissEnable = false then .opened
        else if b.route = .restore then
          ln.gate.after ln.config.openThreshold ln.config.closeThreshold ln.config.holdCount
            (b.samples.foldl (fun m v => max m v.toInt.natAbs) 0)
        else ln.gate) →
    gain =
      (if ln.config.hissEnable = true ∧ b.route = .restore then
          (s.ramps[ln.config.rampTable]).toList.getD
            (match gate with | .opened => 15 | .holding _ => 15 | .closing i => i | .closed => 0) 0
        else 256) →
    scaled = b.samples.map (fun v => BitVec.ofInt 16 (Int.tdiv (v.toInt * (gain : Int)) 256)) →
    f =
      { repaired := b.repairedSeen, substituted := b.fallbackSeen, gated := decide (gain ≠ 256)
        muted := decide (b.route = .mute), generated := decide (b.route = .generate), echoed := false
        flushed := b.flushedSeen, resumed := b.resumed } →
    lead = ln.marks.filter (fun (m : MarkEntry) => decide ((b.seq - m.seq).toNat < 8388608)) →
    later = ln.marks.filter (fun (m : MarkEntry) => decide (8388608 ≤ (b.seq - m.seq).toNat)) →
    parts =
      lead.map (fun (m : MarkEntry) => OutParcel.mark l m.kind m.seq m.offset m.value) ++ [.samples l f b.seq scaled] →
    room = 32 - s.delivery.samples.length →
    u =
      (if ln.config.hissEnable = true ∧ ln.config.gateNotices = true then
          if ln.gate.isClosing = true ∧ gate = .closed then s.issue (noticeOf .gateClosed (some l) b.seq 0)
          else if ln.gate.isLow = true ∧ gate = .opened then
            s.issue (noticeOf .gateOpened (some l) b.seq 0)
          else s
        else s) →
      s.completeAssembly l b =
        { u with
          delivery := { u.delivery with samples := s.delivery.samples ++ parts.take room }
          intake := if room = 0 then s.intake else s.intake.offeredAgain l
          waitList := if parts.length ≤ room ∨ l ∈ s.waitList then s.waitList else s.waitList ++ [l]
          lanes := s.lanes.set l
            { ln with
              gate := gate
              marks := later
              assembly :=
                if parts.length ≤ room then .empty
                else .complete { b with samples := scaled } (lead.drop room) f } }

/-! ### Detection, the gate, the pattern unit -/

/-- The detector's step on a sample under no forced span (R48, R50, R52, R53, R55, R56, R65): a calm sample outside a
run only moves the history; a loud one opens a run in the lowest free record, or, with none free, is counted as missed;
a loud one in the open run grows it; and a calm one counts toward the run's close. -/
def Obligations.DetectorClassifiesASample : Prop :=
  ∀ (s : State) (l : LaneId) (c : LaneConfig) (n : SeqNum) (v : Sample) (d : Detector) (residual : Int)
    (stepped : Detector → State),
    d = (s.lane l).det → d.forcedRemainder = 0 →
    residual = (if d.valid = 2 then v.toInt - (2 * d.h1.toInt - d.h2.toInt) else 0) →
    (∀ e : Detector, stepped e =
      { s with
        lanes := s.lanes.set l
          { s.lane l with
            det := { e with h1 := v, h2 := d.h1, valid := min 2 (d.valid + 1), lastEntered := some v } } }) →
      (d.openRun? = none → residual.natAbs ≤ c.onset → s.detect l c n [] v = stepped d)
      ∧ (d.runs = [] → c.onset < residual.natAbs →
          (∀ r : Nat, r < 64 → r ∉ s.usedRuns → (∀ q < r, q ∈ s.usedRuns) →
            s.detect l c n [] v =
              stepped
                { d with
                  calmCount := 0
                  calmStart := none
                  runs :=
                    [{ number := r
                       causes := { detected := true, splice := false, junction := false, conceal := false }
                       first := (s.lane l).nextPosition, last := (s.lane l).nextPosition, growing := true
                       state := .opened, leftAnchor := d.lastEntered, rightAnchor := none, firstSeq := n }] })
          ∧ ((∀ r < 64, r ∈ s.usedRuns) →
              s.detect l c n [] v =
                (let t : State := stepped d
                  let u : State := { t with lanes := t.lanes.set l ((t.lane l).counted .runsMissed 1) }
                  if s.fullNoticed = true then u
                  else State.issue { u with fullNoticed := true } (noticeOf .runTableFull (some l) n 0))))
      ∧ (∀ r : RunRecord, d.runs = [r] → r.growing = true → r.first ≤ (s.lane l).nextPosition →
          (c.release < residual.natAbs →
            s.detect l c n [] v =
              stepped
                { d with
                  calmCount := 0
                  calmStart := none
                  runs :=
                    [{ r with
                       last := (s.lane l).nextPosition
                       causes := { r.causes with detected := true }
                       state :=
                         if r.state = .opened ∧ c.repairLimit < (s.lane l).nextPosition - r.first + 1 then
                           .unrepaired .tooLong
                         else r.state }] })
          ∧ (residual.natAbs ≤ c.release → d.calmCount + 1 < c.quietCount →
              s.detect l c n [] v =
                stepped
                  { d with
                    calmCount := d.calmCount + 1
                    calmStart := if d.calmCount = 0 then some v else d.calmStart })
          ∧ (residual.natAbs ≤ c.release → c.quietCount ≤ d.calmCount + 1 → (s.lane l).headPosition ≤ r.last →
              r.state = .opened → r.last - r.first + 1 ≤ c.repairLimit → r.leftAnchor ≠ none →
              s.repair.queue.length < 16 →
                s.detect l c n [] v =
                  (let t : State :=
                    stepped
                      { d with
                        calmCount := 0
                        calmStart := none
                        runs :=
                          [{ r with
                             growing := false
                             state := .queued
                             rightAnchor := if d.calmCount = 0 then some v else d.calmStart }] };
                    { t with
                      repair := { t.repair with queue := t.repair.queue ++ [{ lane := l, run := r.number }] } })))

/-- The detector's step on a sample over any run list and under any forced spans (R52). The spans that begin at the
sample lengthen the forced remainder and join their causes, the open run's among them (R59). A forced or loud sample
grows the open run (R55); with none open it merges into the latest record if the window of R54 allows, a QUEUED run
leaving the repair queue and an UNREPAIRED one growing again with its reason; or it opens a run in the lowest free
record (R53); or it passes as clean (R65). A calm sample counts toward the close of the open run, which makes of an OPEN
run TOO_LONG, NO_ANCHOR, QUEUE_FULL or QUEUED, in that order, keeps the reason of an UNREPAIRED one, and releases it if
it was overtaken (R56, R90). -/
def Obligations.DetectorJoinsMergesAndCloses : Prop :=
  ∀ (s : State) (l : LaneId) (c : LaneConfig) (n : SeqNum) (v : Sample) (x : Nat) (d : Detector) (withDet : Detector → State),
    d = (s.lane l).det → x = (s.lane l).nextPosition →
    (∀ e : Detector, withDet e = s.withLane l { s.lane l with det := e }) →
      (∀ (cs : Causes) (k : Nat) (spans : List (Causes × Nat)),
          s.detect l c n ((cs, k) :: spans) v =
            if k = 0 then s.detect l c n spans v
            else
              (withDet
                { d with
                  forcedRemainder := max d.forcedRemainder k
                  forcedCauses := d.forcedCauses.join cs
                  runs := (match d.runs.getLast? with
                    | none => []
                    | some r =>
                      if r.growing = true then
                        d.runs.map fun (q : RunRecord) =>
                          if q.number = r.number then { q with causes := q.causes.join cs } else q
                      else d.runs) }).detect l c n spans v)
      ∧ ∀ (residual : Int) (opened : Option RunRecord) (loud forced : Bool) (cs : Causes) (after : Detector → Detector),
          residual = (if d.valid = 2 then v.toInt - (2 * d.h1.toInt - d.h2.toInt) else 0) →
          opened = (d.runs.getLast?.filter fun (r : RunRecord) => r.growing) →
          loud = decide ((if opened = none then c.onset else c.release) < residual.natAbs) →
          forced = decide (0 < d.forcedRemainder) →
          cs =
            (if forced = true then d.forcedCauses
              else { detected := false, splice := false, junction := false, conceal := false }).join
              { detected := loud, splice := false, junction := false, conceal := false } →
          (∀ e : Detector, after e =
            { e with
              h1 := v, h2 := d.h1, valid := min 2 (d.valid + 1), lastEntered := some v
              forcedRemainder := d.forcedRemainder - 1
              forcedCauses :=
                if d.forcedRemainder = 1 then
                  { detected := false, splice := false, junction := false, conceal := false }
                else d.forcedCauses }) →
            (∀ r : RunRecord, opened = some r →
              (forced = true ∨ loud = true →
                s.detect l c n [] v =
                  withDet (after
                    { d with
                      calmCount := 0
                      calmStart := none
                      runs := d.runs.map fun (q : RunRecord) =>
                        if q.number = r.number then
                          { q with
                            last := x
                            causes := q.causes.join cs
                            state :=
                              if q.state = .opened ∧ c.repairLimit < x - q.first + 1 then .unrepaired .tooLong
                              else q.state }
                        else q }))
              ∧ (forced = false → loud = false → d.calmCount + 1 < c.quietCount →
                  s.detect l c n [] v =
                    withDet (after
                      { d with
                        calmCount := d.calmCount + 1
                        calmStart := if d.calmCount = 0 then some v else d.calmStart }))
              ∧ (forced = false → loud = false → c.quietCount ≤ d.calmCount + 1 →
                  ∀ st : RunState,
                    st =
                      (if r.state ≠ .opened then r.state
                        else if c.repairLimit < r.last - r.first + 1 then .unrepaired .tooLong
                        else if r.leftAnchor = none then .unrepaired .noAnchor
                        else if 16 ≤ s.repair.queue.length then .unrepaired .queueFull
                        else .queued) →
                    s.detect l c n [] v =
                      State.releaseRuns
                        { withDet (after
                            { d with
                              calmCount := 0
                              calmStart := none
                              runs := d.runs.map fun (q : RunRecord) =>
                                if q.number = r.number then
                                  { q with
                                    growing := false
                                    rightAnchor := if d.calmCount = 0 then some v else d.calmStart
                                    state := st }
                                else q }) with
                          repair :=
                            { s.repair with
                              queue := s.repair.queue ++
                                if r.state = .opened ∧ st = .queued then [{ lane := l, run := r.number }] else [] } }
                        l))
            ∧ (opened = none → forced = false → loud = false → s.detect l c n [] v = withDet (after d))
            ∧ (opened = none → forced = true ∨ loud = true →
                ∀ mergeable : RunRecord → Bool,
                  (∀ r : RunRecord, mergeable r =
                    decide ((r.state = .queued ∨ (r.state.isUnrepaired = true ∧ r.growing = false))
                      ∧ x ≤ r.last + c.quietCount + c.mergeDistance)) →
                    (∀ r : RunRecord, d.runs.getLast? = some r → mergeable r = true →
                        s.detect l c n [] v =
                          { withDet (after
                              { d with
                                calmCount := 0
                                calmStart := none
                                runs := d.runs.map fun (q : RunRecord) =>
                                  if q.number = r.number then
                                    { q with
                                      growing := true
                                      last := x
                                      causes := q.causes.join cs
                                      rightAnchor := none
                                      state :=
                                        if q.state ≠ .opened ∧ q.state ≠ .queued then q.state
                                        else if c.repairLimit < x - q.first + 1 then .unrepaired .tooLong
                                        else .opened }
                                  else q }) with
                            repair :=
                              { s.repair with
                                queue := s.repair.queue.filter fun e => decide (e ≠ { lane := l, run := r.number }) } })
                    ∧ ((∀ r : RunRecord, d.runs.getLast? = some r → mergeable r = false) →
                        (∀ k : Nat, k < 64 → (∀ m : LaneId, ∀ q ∈ (s.lane m).det.runs, q.number ≠ k) →
                          (∀ i < k, ∃ m : LaneId, ∃ q ∈ (s.lane m).det.runs, q.number = i) →
                            s.detect l c n [] v =
                              withDet (after
                                { d with
                                  calmCount := 0
                                  calmStart := none
                                  runs := d.runs ++
                                    [{ number := k, causes := cs, first := x, last := x, growing := true
                                       state := .opened, leftAnchor := d.lastEntered, rightAnchor := none
                                       firstSeq := n }] }))
                        ∧ ((∀ k < 64, ∃ m : LaneId, ∃ q ∈ (s.lane m).det.runs, q.number = k) →
                            s.detect l c n [] v =
                              (let t : State :=
                                s.withLane l { (s.lane l).counted .runsMissed 1 with det := after d }
                                if s.fullNoticed = true then t
                                else State.issue { t with fullNoticed := true } (noticeOf .runTableFull (some l) n 0)))))

/-- The hiss gate follows its table (R107), and scaling by a gain of at most 256 truncates toward zero and never makes a
sample larger (R108). -/
def Obligations.GateFollowsItsTableAndScalesDown : Prop :=
  (∀ o c h p : Nat, c ≤ o →
      (∀ g : Gate, (g = .opened ∨ ∃ k, g = .holding k) →
        (o < p ∨ c ≤ p → g.after o c h p = .opened)
        ∧ (p ≤ o → p < c →
            g.after o c h p =
              if (if g = .opened then h = 1 else h ≤ g.holdCount + 1) then .closing 14
              else .holding (g.holdCount + 1)))
      ∧ (∀ i : Nat,
          Gate.after (.closing i) o c h p =
            if o < p then .opened else if i - 1 = 0 then .closed else .closing (i - 1))
      ∧ Gate.after .closed o c h p = if o < p then .opened else .closed)
    ∧ ∀ (g : Nat) (v : Sample), g ≤ 256 →
        (scaleSample g v).toInt = Int.tdiv (v.toInt * (g : Int)) 256
          ∧ (scaleSample g v).toInt.natAbs ≤ v.toInt.natAbs ∧ scaleSample 256 v = v

/-- The SHIFT15 step keeps the range 1..32767, is the one R116 works out, and never maps two words to one; and the
generator gives its next word, altered in its lowest bit when R122 says so, and steps from the unaltered word (R120). -/
def Obligations.PatternStepsAndAlterations : Prop :=
  (∀ w : Word, 1 ≤ w.toNat → w.toNat ≤ 32767 →
      (1 ≤ (shiftStep w).toNat ∧ (shiftStep w).toNat ≤ 32767)
      ∧ (shiftStep w).toNat =
          (2 * w.toNat) % 32768 + (if w.toNat / 16384 = w.toNat / 8192 % 2 then 0 else 1)
      ∧ ∀ u : Word, 1 ≤ u.toNat → u.toNat ≤ 32767 → shiftStep u = shiftStep w → u = w)
    ∧ ∀ g : Generator,
        g.given =
            (if g.single = true ∨ (g.period ≠ 0 ∧ g.countdown = 1) then
              BitVec.ofNat 16 (if g.next.toNat % 2 = 0 then g.next.toNat + 1 else g.next.toNat - 1)
            else g.next)
          ∧ g.advance =
              { g with
                next :=
                  match g.setting.kind with
                  | .shift15 => shiftStep g.next
                  | .constant => g.setting.first
                  | .alternate => if g.next = g.setting.first then g.setting.second else g.setting.first
                single := false
                countdown :=
                  if g.period = 0 then g.countdown
                  else if g.countdown ≤ 1 then g.period else g.countdown - 1 }

/-- One word taken by the checker (R123 to R126): SEARCH tests it as a seed; VERIFY locks at the 24th match with
CHECK_LOCKED and tests a mismatch as a seed; LOCKED counts the word and a mismatch, each counter that reaches its limit
setting its flag and issuing CHECK_SATURATED, keeps the 48 most recent results, and loses lock at 4 mismatches among
them, with CHECK_LOST detail 0. Nothing else changes. -/
def Obligations.CheckerTakesAWord : Prop :=
  ∀ (s : State) (n : SeqNum) (w : Word) (c : Checker) (seeded : CheckerState), c = s.checker →
    seeded =
      (match c.setting.kind with
        | .shift15 => if 1 ≤ w.toNat ∧ w.toNat ≤ 32767 then .verify (shiftStep w) 0 else .search
        | .constant => if w = c.setting.first then .verify c.setting.first 0 else .search
        | .alternate =>
          if w = c.setting.first then .verify c.setting.second 0
          else if w = c.setting.second then .verify c.setting.first 0
          else .search) →
      (c.state = .search → s.checkerWord n w = { s with checker := { c with state := seeded } })
      ∧ (∀ (e : Word) (k : Nat), c.state = .verify e k →
          (w ≠ e → s.checkerWord n w = { s with checker := { c with state := seeded } })
          ∧ (w = e → k ≠ 23 →
              s.checkerWord n w =
                { s with checker := { c with state := .verify (c.setting.following w) (k + 1) } })
          ∧ (w = e → k = 23 →
              s.checkerWord n w =
                State.issue { s with checker := { c with state := .locked (c.setting.following w) [] } }
                  (noticeOf .checkLocked c.lane n 0)))
      ∧ (∀ (e : Word) (h now : List CheckResult), c.state = .locked e h → h.length ≤ 48 →
          now = (h ++ [if w = e then CheckResult.matched else .mismatched]).drop (h.length - 47) →
            s.checkerWord n w =
              (let lost := 4 ≤ now.count .mismatched
                let t : State :=
                  { s with
                    checker :=
                      { c with
                        state := if lost then .search else .locked (c.setting.following e) now
                        wordCount := satBump c.wordCount 1
                        errorCount := if w = e then c.errorCount else satBump c.errorCount 1
                        wordSaturated := c.wordSaturated || decide (c.wordCount.toNat = 4294967294)
                        errorSaturated :=
                          c.errorSaturated || (decide (w ≠ e) && decide (c.errorCount.toNat = 16777214)) } }
                let t1 : State :=
                  if c.wordCount.toNat = 4294967294 then t.issue (noticeOf .checkSaturated c.lane 0 1) else t
                let t2 : State :=
                  if w ≠ e ∧ c.errorCount.toNat = 16777214 then t1.issue (noticeOf .checkSaturated c.lane 0 2) else t1
                if lost then t2.issue (noticeOf .checkLost c.lane n 0) else t2))

/-! ### The reel links -/

/-- The symbols of a pair (R171, R174). While RESET is deasserted each pair the part drives carries IDLE with no parcel
in transmission, and else the words of the parcel, the first as START and every later one as DATA. A receiving pair
comes into step at the eighth IDLE in a row and falls out at the fourth symbol error in a row; the START and DATA words
of a parcel are taken one after another, at most 517 of them kept, and its arrival is at the next IDLE or START. Each
such event joins the waiting ones (log 7, log 16). -/
def Obligations.PairsCarryParcelsOrIdle : Prop :=
  (∀ s : State,
      (s.resetLine = true → s.deliverySymbols = [] ∧ s.intakeReturnSymbols = [])
      ∧ (s.resetLine = false →
          (s.delivery.transmission = .none → s.deliverySymbols = [.idle])
          ∧ (∀ (m : Message) (ms : List Message) (w : Word) (ws : List Word), s.delivery.transmission = .message →
              s.delivery.messages = m :: ms → m.words = w :: ws → s.deliverySymbols = .start w :: ws.map .data)
          ∧ (∀ (p : OutParcel) (ps : List OutParcel) (w : Word) (ws : List Word), s.delivery.transmission = .sample →
              s.delivery.samples = p :: ps → p.words = w :: ws → s.deliverySymbols = .start w :: ws.map .data)
          ∧ (s.intake.sending = none → s.intakeReturnSymbols = [.idle])
          ∧ (∀ (p : Pace) (w : Word) (ws : List Word), s.intake.sending = some p → p.words = w :: ws →
              s.intakeReturnSymbols = .start w :: ws.map .data)))
  ∧ (∀ (r : Receiver) (w : Word) (ws : List Word), r.inStep = true →
      (ws.map Symbol.data).foldl Receiver.feed (r.feed (.start w))
          = { inStep := true, idleRun := r.idleRun, errorRun := 0, parcel := some (receivedAs (w :: ws)) }
        ∧ (∀ v : Word, r.event (.data v) = none)
        ∧ (∀ rx : List RxWord, r.parcel = some rx →
            r.event .idle = some (.arrival rx) ∧ r.event (.start w) = some (.arrival rx)
              ∧ r.feed .idle = { r with errorRun := 0, parcel := none })
        ∧ (r.parcel = none → r.event .idle = none ∧ r.event (.start w) = none ∧ (r.feed (.data w)).parcel = none)
        ∧ (r.errorRun + 1 = 4 →
            r.event .error = some (.down r.parcel.isSome)
              ∧ r.feed .error = { inStep := false, idleRun := 0, errorRun := 0, parcel := none })
        ∧ (r.errorRun + 1 ≠ 4 →
            r.event .error = none
              ∧ r.feed .error =
                  { r with
                    errorRun := r.errorRun + 1, parcel := r.parcel.map fun rx => rx ++ [RxWord.symbolError] }))
  ∧ (∀ r : Receiver, r.inStep = false →
      (r.idleRun + 1 = 8 →
          r.event .idle = some .up ∧ r.feed .idle = { inStep := true, idleRun := 0, errorRun := 0, parcel := none })
        ∧ (r.idleRun + 1 ≠ 8 → r.event .idle = none ∧ r.feed .idle = { r with idleRun := r.idleRun + 1 })
        ∧ ∀ x : Symbol, x ≠ .idle → r.event x = none ∧ r.feed x = { r with idleRun := 0 })
  ∧ ∀ (s : State) (x : Symbol),
      (s.resetLine = true → s.intakeSymbol x = s ∧ s.returnSymbol x = s)
      ∧ (s.resetLine = false →
          s.intakeSymbol x =
              { s with
                intake := { s.intake with receiver := s.intake.receiver.feed x }
                pending :=
                  s.pending ++
                    (match s.intake.receiver.event x with
                      | none => []
                      | some .up => [.intakeLinkUp]
                      | some (.down receiving) => [.intakeLinkDown receiving]
                      | some (.arrival rx) => [.intakeArrival rx]) }
            ∧ s.returnSymbol x =
              { s with
                delivery := { s.delivery with receiver := s.delivery.receiver.feed x }
                pending :=
                  s.pending ++
                    (match s.delivery.receiver.event x with
                      | none => []
                      | some .up => [.deliveryLinkUp]
                      | some (.down receiving) => [.deliveryLinkDown receiving]
                      | some (.arrival rx) => [.returnArrival rx]) })

/-! ### Parcels -/

/-- Parcels read back as they were written (R134, R154, R175 to R178): for every SAMPLES and MARK parcel in the ranges
of R134, every CONTROL parcel of at most 257 words and both PACE parcels, the words R176 lays out pass the tests of
their port and give the same fields again; and the receiver's register stands at 0 after any words and their check word.
-/
def Obligations.ParcelsReadBackAsWritten : Prop :=
  (∀ ws : List Word, crc (ws ++ [crc ws]) = 0)
    ∧ (∀ (l : LaneId) (f : Nat) (n : SeqNum) (vs : List Sample), f ≤ 255 → 1 ≤ vs.length → vs.length ≤ 512 →
        intakeVerdict ((parcelWords 1 l.val f n vs).map .word) = .good (.samples l n vs))
    ∧ (∀ (l : LaneId) (k : MarkKind) (n : SeqNum) (o : Nat) (v : Word), o ≤ 511 →
        intakeVerdict ((parcelWords 2 l.val 0 n [BitVec.ofNat 16 k.code, BitVec.ofNat 16 o, v]).map .word)
          = .good (.mark l k n o v))
    ∧ (∀ (tag : Word) (pay : List Word), pay.length ≤ 257 →
        returnVerdict ((parcelWords 3 0 0 (tag.setWidth 24) pay).map .word)
          = .control { tag := tag, payload := pay })
    ∧ ∀ p : Pace, returnVerdict (p.words.map .word) = .pace p

/-! ### Laws that every step keeps -/

/-- The laws of the part hold right after reset. -/
def Obligations.LawsHoldAtReset : Prop :=
  QueuesInBounds State.reset ∧ BatchLaw State.reset ∧ IntakePaceLaw State.reset ∧ DeliveryPaceLaw State.reset
    ∧ CheckerLaw State.reset.checker ∧ CheckerBusyLaw State.reset ∧ HumLaw State.reset ∧ SwapLaw State.reset
    ∧ WorkLaws State.reset ∧ ParcelLaw State.reset ∧ TransmissionLaw State.reset ∧ GateLaw State.reset
    ∧ ∀ l : LaneId, TimerLaw (State.reset.lane l)

/-- Every step keeps the capacities of the queues (R132) and the laws of the notice batch (R156 to R158). -/
def Obligations.StepsKeepQueueAndBatchLaws : Prop :=
  ∀ s t : State, QueuesInBounds s → BatchLaw s → step s = .next t → QueuesInBounds t ∧ BatchLaw t

/-- Every step keeps the laws of the intake pace state (R141) and of the delivery pace (R153). -/
def Obligations.StepsKeepPaceLaws : Prop :=
  ∀ s t : State, IntakePaceLaw s → DeliveryPaceLaw s → step s = .next t → IntakePaceLaw t ∧ DeliveryPaceLaw t

/-- Every step keeps the law of the checker's counters and state (R115, R124 to R126), and keeps the checker in VERIFY
or LOCKED only while its attached lane is RUNNING on route CHECK (R115). -/
def Obligations.StepsKeepTheCheckerLaw : Prop :=
  ∀ s t : State, step s = .next t →
    (CheckerLaw s.checker → CheckerLaw t.checker) ∧ (CheckerBusyLaw s → CheckerBusyLaw t)

/-- Every step keeps the hum banks in their one form, every phase index inside its SERVING bank, and no swap pending on
a profile without a user (R30, R31, R36, R38). -/
def Obligations.StepsKeepTheHumLaws : Prop :=
  ∀ s t : State, HumLaw s → SwapLaw s → step s = .next t → HumLaw t ∧ SwapLaw t

/-- Every step keeps every record in its ranges, every allocation the one R3 gives, and the allocations within the
24,576 places (R3, R6). -/
def Obligations.StepsKeepHoldMemoryInBounds : Prop :=
  ∀ s t : State, HoldMemoryLaw s → step s = .next t → HoldMemoryLaw t

/-- Every step keeps a parcel in transmission at the head of its queue with the link UP (R148, R160), the parcels of the
intake queue in the ranges of R134, every starvation timer within 255 ms and counting only on a RUNNING lane with no
stall pending (R25), and every gate and ramp gain in its range (R106, R110). -/
def Obligations.StepsKeepPortTimerAndGateLaws : Prop :=
  ∀ s t : State, step s = .next t →
    (TransmissionLaw s → TransmissionLaw t)
      ∧ (IntakeParcelLaw s → IntakeParcelLaw t)
      ∧ (GateLaw s → GateLaw t)
      ∧ (GateLaw s → (∀ l : LaneId, TimerLaw (s.lane l)) → ∀ l : LaneId, TimerLaw (t.lane l))

/-- Every step keeps every parcel that the part sends well formed (R177), with those that lead to it (R134). The premise
is the laws that hold together with it. -/
def Obligations.StepsKeepTheParcelLaw : Prop :=
  ∀ s t : State, WorkLaws s → BatchLaw s → ParcelLaw s → step s = .next t → ParcelLaw t

/-- Every step keeps a lane in OFF, ARMED or STALLED without held samples, run records, a parcel in assembly or marks
(R5). The premise is the laws that hold together with it. -/
def Obligations.StepsKeepLanesAtRestEmpty : Prop :=
  ∀ s t : State, WorkLaws s → step s = .next t → ∀ l : LaneId, RestLaw (t.lane l)

/-- Every step keeps every hold line inside its allocation and every mark list inside its 8 entries (R21, R73), the held
parcels one behind another (R71, R72), the run list in order of position and in agreement with them (R51, R90), and the
assembly in agreement with the head held parcel (R97). The premise is the laws that hold together with these. -/
def Obligations.StepsKeepTheHoldLineLaws : Prop :=
  ∀ s t : State, WorkLaws s → step s = .next t →
    ∀ l : LaneId, HoldLineLaw (t.lane l) ∧ RunListLaw (t.lane l) ∧ (t.lane l).assemblyLawful = true

/-- Every step keeps every run record in use under one of the 64 numbers, in one lane's run list (R51). -/
def Obligations.StepsKeepTheRunTableLaw : Prop :=
  ∀ s t : State, RunTableLaw s → step s = .next t → RunTableLaw t

/-- Every step keeps the repair queue to the QUEUED runs, each with one entry, and the unit's run the one that is
REPAIRING (R80). The premise is the laws that hold together with it. -/
def Obligations.StepsKeepTheRepairLaw : Prop :=
  ∀ s t : State, WorkLaws s → step s = .next t → RepairLaw t

/-- Every step keeps on the placement wait list each lane with a part that waits, once, and no other; and while a lane
waits, the sample queue is full (R97, R103). The premise is the laws that hold together with it. -/
def Obligations.StepsKeepTheWaitListLaw : Prop :=
  ∀ s t : State, WorkLaws s → step s = .next t → WaitListLaw t
end

