-- ==== Sys2Proof/Laws/Config.lean ====
section
/-! SUPPORT. The configuration record in words: the words of a record in range give back that record, and no other words
are read as a record (R4 test 2, R180). -/

namespace Sys2Proof.Machine

theorem argRange_natWord {lo hi n : Nat} (h1 : lo ≤ n) (h2 : n ≤ hi) (h3 : hi < 65536) :
    argRange lo hi (natWord n) = some n := by
  have : (natWord n).toNat = n := by simp only [natWord, BitVec.toNat_ofNat]; omega
  unfold argRange
  rw [this, if_pos ⟨h1, h2⟩]

theorem argRange_eq_some {lo hi n : Nat} {w : Word} :
    argRange lo hi w = some n ↔ w = natWord n ∧ lo ≤ n ∧ n ≤ hi ∧ n < 65536 := by
  unfold argRange
  constructor
  · intro h
    split at h
    · rename_i hr
      have e : w.toNat = n := Option.some.inj h
      subst e
      exact ⟨by simp [natWord], hr.1, hr.2, w.isLt⟩
    · exact absurd h (by simp)
  · rintro ⟨rfl, h1, h2, h3⟩
    have : (natWord n).toNat = n := by simp only [natWord, BitVec.toNat_ofNat]; omega
    rw [this, if_pos ⟨h1, h2⟩]

theorem argBool_eq_some {b : Bool} {w : Word} : argBool w = some b ↔ w = boolWord b := by
  unfold argBool boolWord
  split <;> rename_i h <;> cases b <;> simp_all [← BitVec.toNat_inj]

theorem argRoute_eq_some {r : Route} {w : Word} : argRoute w = some r ↔ w = natWord r.code := by
  unfold argRoute natWord
  split <;> rename_i h <;> cases r <;> simp_all [← BitVec.toNat_inj, Route.code]

theorem argStartOption_eq_some {r : StartOption} {w : Word} : argStartOption w = some r ↔ w = natWord r.code := by
  unfold argStartOption natWord
  split <;> rename_i h <;> cases r <;> simp_all [← BitVec.toNat_inj, StartOption.code]

theorem argFallback_eq_some {r : Fallback} {w : Word} : argFallback w = some r ↔ w = natWord r.code := by
  unfold argFallback natWord
  split <;> rename_i h <;> cases r <;> simp_all [← BitVec.toNat_inj, Fallback.code]

theorem argWatchAction_eq_some {r : WatchAction} {w : Word} : argWatchAction w = some r ↔ w = natWord r.code := by
  unfold argWatchAction natWord
  split <;> rename_i h <;> cases r <;> simp_all [← BitVec.toNat_inj, WatchAction.code]

theorem argRamp_eq_some {r : RampId} {w : Word} : argRamp w = some r ↔ w = natWord r.val := by
  unfold argRamp natWord
  split
  · rename_i h
    have := r.isLt
    rw [Option.some_inj, ← BitVec.toNat_inj, Fin.ext_iff, BitVec.toNat_ofNat]
    dsimp only
    omega
  · rename_i h
    have := r.isLt
    simp only [reduceCtorEq, false_iff, ← BitVec.toNat_inj, BitVec.toNat_ofNat]
    omega

theorem argProfileOrNone_eq_some {p : Option ProfileId} {w : Word} :
    argProfileOrNone w = some p ↔ w = natWord (profileCode p) := by
  unfold argProfileOrNone natWord
  rw [← BitVec.toNat_inj, BitVec.toNat_ofNat]
  split
  · rename_i h
    cases p with
    | none => simp only [Option.some_inj, reduceCtorEq, profileCode, false_iff]; omega
    | some k => simp only [Option.some_inj, profileCode, Fin.ext_iff]; omega
  · split
    · rename_i h1 h2
      cases p with
      | none => simp [profileCode, h2]
      | some k => simp only [Option.some_inj, reduceCtorEq, profileCode, false_iff]; omega
    · rename_i h1 h2
      cases p with
      | none => simp only [reduceCtorEq, profileCode, false_iff]; omega
      | some k => simp only [reduceCtorEq, profileCode, false_iff]; omega

/-- Words are read as a record exactly when they are the words of that record and its fields are in their ranges (R2,
R4 test 2, R180). -/
theorem LaneConfig.ofWords_eq_some {ws : List Word} {c : LaneConfig} :
    LaneConfig.ofWords ws = some c ↔ ConfigInRange c ∧ ws = c.words := by
  constructor
  · intro h
    unfold LaneConfig.ofWords at h
    split at h
    · obtain ⟨r, h0, h⟩ := Option.bind_eq_some_iff.1 h
      replace h0 := argRoute_eq_some.1 h0
      obtain ⟨so, h1, h⟩ := Option.bind_eq_some_iff.1 h
      replace h1 := argStartOption_eq_some.1 h1
      obtain ⟨d, h2, h⟩ := Option.bind_eq_some_iff.1 h
      replace h2 := argRange_eq_some.1 h2
      obtain ⟨p, h3, h⟩ := Option.bind_eq_some_iff.1 h
      replace h3 := argRange_eq_some.1 h3
      obtain ⟨s, h4, h⟩ := Option.bind_eq_some_iff.1 h
      replace h4 := argRange_eq_some.1 h4
      obtain ⟨on, h5, h⟩ := Option.bind_eq_some_iff.1 h
      replace h5 := argRange_eq_some.1 h5
      obtain ⟨rel, h6, h⟩ := Option.bind_eq_some_iff.1 h
      replace h6 := argRange_eq_some.1 h6
      obtain ⟨q, h7, h⟩ := Option.bind_eq_some_iff.1 h
      replace h7 := argRange_eq_some.1 h7
      obtain ⟨m, h8, h⟩ := Option.bind_eq_some_iff.1 h
      replace h8 := argRange_eq_some.1 h8
      obtain ⟨g, h9, h⟩ := Option.bind_eq_some_iff.1 h
      replace h9 := argRange_eq_some.1 h9
      obtain ⟨fb, h10, h⟩ := Option.bind_eq_some_iff.1 h
      replace h10 := argFallback_eq_some.1 h10
      obtain ⟨w, h11, h⟩ := Option.bind_eq_some_iff.1 h
      replace h11 := argRange_eq_some.1 h11
      obtain ⟨j, h12, h⟩ := Option.bind_eq_some_iff.1 h
      replace h12 := argRange_eq_some.1 h12
      obtain ⟨hp, h13, h⟩ := Option.bind_eq_some_iff.1 h
      replace h13 := argProfileOrNone_eq_some.1 h13
      obtain ⟨hg, h14, h⟩ := Option.bind_eq_some_iff.1 h
      replace h14 := argRange_eq_some.1 h14
      obtain ⟨he, h15, h⟩ := Option.bind_eq_some_iff.1 h
      replace h15 := argBool_eq_some.1 h15
      obtain ⟨rt, h16, h⟩ := Option.bind_eq_some_iff.1 h
      replace h16 := argRamp_eq_some.1 h16
      obtain ⟨ot, h17, h⟩ := Option.bind_eq_some_iff.1 h
      replace h17 := argRange_eq_some.1 h17
      obtain ⟨ct, h18, h⟩ := Option.bind_eq_some_iff.1 h
      replace h18 := argRange_eq_some.1 h18
      obtain ⟨hc, h19, h⟩ := Option.bind_eq_some_iff.1 h
      replace h19 := argRange_eq_some.1 h19
      obtain ⟨gn, h20, h⟩ := Option.bind_eq_some_iff.1 h
      replace h20 := argBool_eq_some.1 h20
      obtain ⟨we, h21, h⟩ := Option.bind_eq_some_iff.1 h
      replace h21 := argBool_eq_some.1 h21
      obtain ⟨wa, h22, h⟩ := Option.bind_eq_some_iff.1 h
      replace h22 := argWatchAction_eq_some.1 h22
      obtain ⟨la, h23, h⟩ := Option.bind_eq_some_iff.1 h
      replace h23 := argRange_eq_some.1 h23
      obtain ⟨lb, h24, h⟩ := Option.bind_eq_some_iff.1 h
      replace h24 := argRange_eq_some.1 h24
      obtain ⟨st, h25, e⟩ := Option.bind_eq_some_iff.1 h
      replace h25 := argRange_eq_some.1 h25
      have e := Option.some.inj e
      subst e
      refine ⟨⟨⟨h2.2.1, h2.2.2.1⟩, ⟨h3.2.1, h3.2.2.1⟩, h4.2.2.1, ⟨h5.2.1, h5.2.2.1⟩, h6.2.2.1, ⟨h7.2.1, h7.2.2.1⟩,
        ⟨h8.2.1, h8.2.2.1⟩, h9.2.2.1, h11.2.2.1, h12.2.2.1, h14.2.2.1, h17.2.2.1, h18.2.2.1, ⟨h19.2.1, h19.2.2.1⟩,
        h23.2.2.1, h24.2.2.1, h25.2.2.1⟩, ?_⟩
      simp only [LaneConfig.words, List.map_cons, List.map_nil, List.cons_append, List.nil_append]
      rw [h0, h1, h2.1, h3.1, h4.1, h5.1, h6.1, h7.1, h8.1, h9.1, h10, h11.1, h12.1, h13, h14.1, h15, h16, h17.1,
        h18.1, h19.1, h20, h21, h22, h23.1, h24.1, h25.1]
    · exact absurd h (by simp)
  · rintro ⟨⟨⟨a1, a2⟩, ⟨b1, b2⟩, c2, ⟨d1, d2⟩, e2, ⟨f1, f2⟩, ⟨g1, g2⟩, h2, i2, j2, k2, l2, m2, ⟨n1, n2⟩, o2, p2, q2⟩, rfl⟩
    have r : ∀ {lo hi n : Nat}, lo ≤ n → n ≤ hi → hi < 65536 → argRange lo hi (natWord n) = some n := argRange_natWord
    have z : ∀ n : Nat, 0 ≤ n := Nat.zero_le
    have on : c.onset < 65536 := by omega
    have op : c.openThreshold < 65536 := by omega
    simp only [LaneConfig.words, List.map_cons, List.map_nil, List.cons_append, List.nil_append, LaneConfig.ofWords,
      argRoute_eq_some.2 rfl, argStartOption_eq_some.2 rfl, argFallback_eq_some.2 rfl, argWatchAction_eq_some.2 rfl,
      argRamp_eq_some.2 rfl, argProfileOrNone_eq_some.2 rfl, argBool_eq_some.2 rfl, r a1 a2 (by decide),
      r b1 b2 (by decide), r (z _) c2 (by decide), r d1 d2 (by decide), r (z _) e2 on, r f1 f2 (by decide),
      r g1 g2 (by decide), r (z _) h2 (by decide), r (z _) i2 (by decide), r (z _) j2 (by decide),
      r (z _) k2 (by decide), r (z _) l2 (by decide), r (z _) m2 op, r n1 n2 (by decide), r (z _) o2 (by decide),
      r (z _) p2 (by decide), r (z _) q2 (by decide), Option.bind_eq_bind, Option.bind_some]

end Sys2Proof.Machine
end

