-- ==== Sys2Proof/Laws/State.lean ====
section
/-! SUPPORT. One lemma per field per update: what each primitive update of State leaves and what it changes. Later proofs
rewrite with these and never unfold a record update. -/

namespace Sys2Proof.Machine

/-! ### Reading a lane after a lane was changed -/

@[simp] theorem State.lane_modLane_same (s : State) (l : LaneId) (f : Lane → Lane) :
    (s.modLane l f).lane l = f (s.lane l) := by
  simp [State.modLane, State.lane]

theorem State.lane_modLane_ne (s : State) {l m : LaneId} (f : Lane → Lane) (h : m ≠ l) :
    (s.modLane l f).lane m = s.lane m := by
  have h' : (l : Nat) ≠ (m : Nat) := fun e => h (Fin.ext e.symm)
  simp [State.modLane, State.lane, Vector.getElem_set_ne, h']

@[simp] theorem State.lane_modDet_same (s : State) (l : LaneId) (f : Detector → Detector) :
    (s.modDet l f).lane l = { s.lane l with det := f (s.lane l).det } := by simp [State.modDet]

@[simp] theorem State.lane_modHum_same (s : State) (l : LaneId) (f : LaneHum → LaneHum) :
    (s.modHum l f).lane l = { s.lane l with hum := f (s.lane l).hum } := by simp [State.modHum]

@[simp] theorem State.lane_count_same (s : State) (l : LaneId) (c : LaneCounter) (n : Nat) :
    (s.count l c n).lane l = (s.lane l).bump c n := by simp [State.count]

theorem State.lane_modDet_ne (s : State) {l m : LaneId} (f : Detector → Detector) (h : m ≠ l) :
    (s.modDet l f).lane m = s.lane m := State.lane_modLane_ne s _ h

theorem State.lane_modHum_ne (s : State) {l m : LaneId} (f : LaneHum → LaneHum) (h : m ≠ l) :
    (s.modHum l f).lane m = s.lane m := State.lane_modLane_ne s _ h

theorem State.lane_count_ne (s : State) {l m : LaneId} (c : LaneCounter) (n : Nat) (h : m ≠ l) :
    (s.count l c n).lane m = s.lane m := State.lane_modLane_ne s _ h

/-! ### A changed lane leaves every other field -/

@[simp] theorem State.resetLine_modLane (s : State) (l : LaneId) (f : Lane → Lane) :
    (s.modLane l f).resetLine = s.resetLine := rfl
@[simp] theorem State.deliveryReady_modLane (s : State) (l : LaneId) (f : Lane → Lane) :
    (s.modLane l f).deliveryReady = s.deliveryReady := rfl
@[simp] theorem State.profiles_modLane (s : State) (l : LaneId) (f : Lane → Lane) :
    (s.modLane l f).profiles = s.profiles := rfl
@[simp] theorem State.fullNoticed_modLane (s : State) (l : LaneId) (f : Lane → Lane) :
    (s.modLane l f).fullNoticed = s.fullNoticed := rfl
@[simp] theorem State.repair_modLane (s : State) (l : LaneId) (f : Lane → Lane) :
    (s.modLane l f).repair = s.repair := rfl
@[simp] theorem State.waitList_modLane (s : State) (l : LaneId) (f : Lane → Lane) :
    (s.modLane l f).waitList = s.waitList := rfl
@[simp] theorem State.ramps_modLane (s : State) (l : LaneId) (f : Lane → Lane) :
    (s.modLane l f).ramps = s.ramps := rfl
@[simp] theorem State.generator_modLane (s : State) (l : LaneId) (f : Lane → Lane) :
    (s.modLane l f).generator = s.generator := rfl
@[simp] theorem State.checker_modLane (s : State) (l : LaneId) (f : Lane → Lane) :
    (s.modLane l f).checker = s.checker := rfl
@[simp] theorem State.intake_modLane (s : State) (l : LaneId) (f : Lane → Lane) :
    (s.modLane l f).intake = s.intake := rfl
@[simp] theorem State.delivery_modLane (s : State) (l : LaneId) (f : Lane → Lane) :
    (s.modLane l f).delivery = s.delivery := rfl
@[simp] theorem State.control_modLane (s : State) (l : LaneId) (f : Lane → Lane) :
    (s.modLane l f).control = s.control := rfl
@[simp] theorem State.pending_modLane (s : State) (l : LaneId) (f : Lane → Lane) :
    (s.modLane l f).pending = s.pending := rfl

@[simp] theorem State.delivery_modDet (s : State) (l : LaneId) (f : Detector → Detector) :
    (s.modDet l f).delivery = s.delivery := rfl
@[simp] theorem State.repair_modDet (s : State) (l : LaneId) (f : Detector → Detector) :
    (s.modDet l f).repair = s.repair := rfl
@[simp] theorem State.intake_modDet (s : State) (l : LaneId) (f : Detector → Detector) :
    (s.modDet l f).intake = s.intake := rfl
@[simp] theorem State.delivery_modHum (s : State) (l : LaneId) (f : LaneHum → LaneHum) :
    (s.modHum l f).delivery = s.delivery := rfl
@[simp] theorem State.profiles_modHum (s : State) (l : LaneId) (f : LaneHum → LaneHum) :
    (s.modHum l f).profiles = s.profiles := rfl
@[simp] theorem State.delivery_count (s : State) (l : LaneId) (c : LaneCounter) (n : Nat) :
    (s.count l c n).delivery = s.delivery := rfl
@[simp] theorem State.intake_count (s : State) (l : LaneId) (c : LaneCounter) (n : Nat) :
    (s.count l c n).intake = s.intake := rfl
@[simp] theorem State.waitList_count (s : State) (l : LaneId) (c : LaneCounter) (n : Nat) :
    (s.count l c n).waitList = s.waitList := rfl

/-! ### A notice changes the delivery port only -/

@[simp] theorem State.resetLine_issue (s : State) (n : Notice) : (s.issue n).resetLine = s.resetLine := rfl
@[simp] theorem State.deliveryReady_issue (s : State) (n : Notice) : (s.issue n).deliveryReady = s.deliveryReady := rfl
@[simp] theorem State.lanes_issue (s : State) (n : Notice) : (s.issue n).lanes = s.lanes := rfl
@[simp] theorem State.lane_issue (s : State) (n : Notice) (l : LaneId) : (s.issue n).lane l = s.lane l := rfl
@[simp] theorem State.profiles_issue (s : State) (n : Notice) : (s.issue n).profiles = s.profiles := rfl
@[simp] theorem State.profile_issue (s : State) (n : Notice) (k : ProfileId) : (s.issue n).profile k = s.profile k := rfl
@[simp] theorem State.fullNoticed_issue (s : State) (n : Notice) : (s.issue n).fullNoticed = s.fullNoticed := rfl
@[simp] theorem State.repair_issue (s : State) (n : Notice) : (s.issue n).repair = s.repair := rfl
@[simp] theorem State.waitList_issue (s : State) (n : Notice) : (s.issue n).waitList = s.waitList := rfl
@[simp] theorem State.ramps_issue (s : State) (n : Notice) : (s.issue n).ramps = s.ramps := rfl
@[simp] theorem State.generator_issue (s : State) (n : Notice) : (s.issue n).generator = s.generator := rfl
@[simp] theorem State.checker_issue (s : State) (n : Notice) : (s.issue n).checker = s.checker := rfl
@[simp] theorem State.intake_issue (s : State) (n : Notice) : (s.issue n).intake = s.intake := rfl
@[simp] theorem State.delivery_issue (s : State) (n : Notice) : (s.issue n).delivery = s.delivery.issue n := rfl
@[simp] theorem State.control_issue (s : State) (n : Notice) : (s.issue n).control = s.control := rfl
@[simp] theorem State.pending_issue (s : State) (n : Notice) : (s.issue n).pending = s.pending := rfl

/-! ### A parcel pushed changes the sample queue only -/

@[simp] theorem State.samples_pushSample (s : State) (p : OutParcel) :
    (s.pushSample p).delivery.samples = s.delivery.samples ++ [p] := rfl
@[simp] theorem State.delivery_pushSample (s : State) (p : OutParcel) :
    (s.pushSample p).delivery = { s.delivery with samples := s.delivery.samples ++ [p] } := rfl
@[simp] theorem State.lanes_pushSample (s : State) (p : OutParcel) : (s.pushSample p).lanes = s.lanes := rfl
@[simp] theorem State.lane_pushSample (s : State) (p : OutParcel) (l : LaneId) :
    (s.pushSample p).lane l = s.lane l := rfl
@[simp] theorem State.intake_pushSample (s : State) (p : OutParcel) : (s.pushSample p).intake = s.intake := rfl
@[simp] theorem State.waitList_pushSample (s : State) (p : OutParcel) : (s.pushSample p).waitList = s.waitList := rfl
@[simp] theorem State.repair_pushSample (s : State) (p : OutParcel) : (s.pushSample p).repair = s.repair := rfl
@[simp] theorem State.profiles_pushSample (s : State) (p : OutParcel) : (s.pushSample p).profiles = s.profiles := rfl
@[simp] theorem State.control_pushSample (s : State) (p : OutParcel) : (s.pushSample p).control = s.control := rfl
@[simp] theorem State.pending_pushSample (s : State) (p : OutParcel) : (s.pushSample p).pending = s.pending := rfl

/-! ### The intake head offered again changes head waiting only -/

/-- The head of the intake queue names lane l. -/
def IntakePort.headNames (p : IntakePort) (l : LaneId) : Bool :=
  match p.queue with
  | [] => false
  | x :: _ => decide (x.lane = l)

/-- All that a wake does: head waiting becomes no when the head names the lane. -/
theorem State.wake_eq (s : State) (l : LaneId) :
    s.wake l =
      { s with
        intake :=
          { s.intake with headWaiting := if s.intake.headNames l then false else s.intake.headWaiting } } := by
  unfold State.wake IntakePort.headNames
  cases s.intake.queue with
  | nil => simp
  | cons p rest => by_cases h : p.lane = l <;> simp [h]

@[simp] theorem State.resetLine_wake (s : State) (l : LaneId) : (s.wake l).resetLine = s.resetLine := by rw [wake_eq]
@[simp] theorem State.deliveryReady_wake (s : State) (l : LaneId) : (s.wake l).deliveryReady = s.deliveryReady := by
  rw [wake_eq]
@[simp] theorem State.lanes_wake (s : State) (l : LaneId) : (s.wake l).lanes = s.lanes := by rw [wake_eq]
@[simp] theorem State.lane_wake (s : State) (l m : LaneId) : (s.wake l).lane m = s.lane m := by
  unfold State.lane; rw [lanes_wake]
@[simp] theorem State.profiles_wake (s : State) (l : LaneId) : (s.wake l).profiles = s.profiles := by rw [wake_eq]
@[simp] theorem State.fullNoticed_wake (s : State) (l : LaneId) : (s.wake l).fullNoticed = s.fullNoticed := by
  rw [wake_eq]
@[simp] theorem State.repair_wake (s : State) (l : LaneId) : (s.wake l).repair = s.repair := by rw [wake_eq]
@[simp] theorem State.waitList_wake (s : State) (l : LaneId) : (s.wake l).waitList = s.waitList := by rw [wake_eq]
@[simp] theorem State.ramps_wake (s : State) (l : LaneId) : (s.wake l).ramps = s.ramps := by rw [wake_eq]
@[simp] theorem State.generator_wake (s : State) (l : LaneId) : (s.wake l).generator = s.generator := by rw [wake_eq]
@[simp] theorem State.checker_wake (s : State) (l : LaneId) : (s.wake l).checker = s.checker := by rw [wake_eq]
@[simp] theorem State.queue_wake (s : State) (l : LaneId) : (s.wake l).intake.queue = s.intake.queue := by rw [wake_eq]
@[simp] theorem State.delivery_wake (s : State) (l : LaneId) : (s.wake l).delivery = s.delivery := by rw [wake_eq]
@[simp] theorem State.control_wake (s : State) (l : LaneId) : (s.wake l).control = s.control := by rw [wake_eq]
@[simp] theorem State.pending_wake (s : State) (l : LaneId) : (s.wake l).pending = s.pending := by rw [wake_eq]

/-! ### The placement wait list -/

@[simp] theorem State.waitList_leaveWait (s : State) (l : LaneId) :
    (s.leaveWait l).waitList = s.waitList.filter fun m => m != l := rfl
@[simp] theorem State.lanes_leaveWait (s : State) (l : LaneId) : (s.leaveWait l).lanes = s.lanes := rfl
@[simp] theorem State.lane_leaveWait (s : State) (l m : LaneId) : (s.leaveWait l).lane m = s.lane m := rfl
@[simp] theorem State.delivery_leaveWait (s : State) (l : LaneId) : (s.leaveWait l).delivery = s.delivery := rfl
@[simp] theorem State.intake_leaveWait (s : State) (l : LaneId) : (s.leaveWait l).intake = s.intake := rfl

/-- All that joining the wait list does. -/
theorem State.joinWait_eq (s : State) (l : LaneId) :
    s.joinWait l = { s with waitList := if s.waitList.contains l then s.waitList else s.waitList ++ [l] } := by
  unfold State.joinWait
  split <;> simp_all

@[simp] theorem State.lanes_joinWait (s : State) (l : LaneId) : (s.joinWait l).lanes = s.lanes := by rw [joinWait_eq]
@[simp] theorem State.lane_joinWait (s : State) (l m : LaneId) : (s.joinWait l).lane m = s.lane m := by
  unfold State.lane; rw [lanes_joinWait]
@[simp] theorem State.delivery_joinWait (s : State) (l : LaneId) : (s.joinWait l).delivery = s.delivery := by
  rw [joinWait_eq]
@[simp] theorem State.intake_joinWait (s : State) (l : LaneId) : (s.joinWait l).intake = s.intake := by
  rw [joinWait_eq]

/-! ### A profile changed -/

@[simp] theorem State.profile_modProfile_same (s : State) (k : ProfileId) (f : HumProfile → HumProfile) :
    (s.modProfile k f).profile k = f (s.profile k) := by
  simp [State.modProfile, State.profile]

theorem State.profile_modProfile_ne (s : State) {k j : ProfileId} (f : HumProfile → HumProfile) (h : j ≠ k) :
    (s.modProfile k f).profile j = s.profile j := by
  have h' : (k : Nat) ≠ (j : Nat) := fun e => h (Fin.ext e.symm)
  simp [State.modProfile, State.profile, Vector.getElem_set_ne, h']

@[simp] theorem State.lanes_modProfile (s : State) (k : ProfileId) (f : HumProfile → HumProfile) :
    (s.modProfile k f).lanes = s.lanes := rfl
@[simp] theorem State.lane_modProfile (s : State) (k : ProfileId) (f : HumProfile → HumProfile) (l : LaneId) :
    (s.modProfile k f).lane l = s.lane l := rfl
@[simp] theorem State.delivery_modProfile (s : State) (k : ProfileId) (f : HumProfile → HumProfile) :
    (s.modProfile k f).delivery = s.delivery := rfl

/-! ### Counters -/

@[simp] theorem Lane.counter_bump_same (ln : Lane) (c : LaneCounter) (n : Nat) :
    (ln.bump c n).counter c = satBump (ln.counter c) n := by
  simp [Lane.bump, Lane.counter, bumpAt]

theorem LaneCounter.place_injective : ∀ c d : LaneCounter, c.place = d.place → c = d := by
  intro c d
  cases c <;> cases d <;> first | (intro _; rfl) | (intro h; exact absurd h (by decide))

theorem Lane.counter_bump_ne (ln : Lane) {c d : LaneCounter} (n : Nat) (h : d ≠ c) :
    (ln.bump c n).counter d = ln.counter d := by
  have h' : (c.place : Nat) ≠ (d.place : Nat) := fun e => h (LaneCounter.place_injective _ _ (Fin.ext e.symm))
  simp [Lane.bump, Lane.counter, bumpAt, Vector.getElem_set_ne, h']

end Sys2Proof.Machine
end

