-- ==== Sys2Proof/Laws/Work.lean ====
section
/-! SUPPORT. What the lanes' work can do to the part. `Work s t` says that t comes from s by the primitive updates that
entries, departures, drains, swaps and repairs are made of; every shared operation is such work, and a law that the
primitives keep is kept by every operation. -/

namespace Sys2Proof.Machine

/-- A change that leaves the lines, the ramp tables, the control unit, the waiting events and the two ports. -/
def State.withBlocks (s : State) (lanes : Vector Lane 16) (profiles : Vector HumProfile 8) (fullNoticed : Bool)
    (repair : RepairUnit) (waitList : List LaneId) (generator : Generator) : State :=
  { s with
    lanes := lanes, profiles := profiles, fullNoticed := fullNoticed, repair := repair, waitList := waitList,
    generator := generator }

/-- The lanes' work: the primitive updates and their compositions. A parcel joins the sample queue only into a free place,
and the checker keeps its law. -/
inductive Work : State → State → Prop where
  | refl (s : State) : Work s s
  | trans {s t u : State} : Work s t → Work t u → Work s u
  | blocks (s : State) (lanes : Vector Lane 16) (profiles : Vector HumProfile 8) (fullNoticed : Bool)
      (repair : RepairUnit) (waitList : List LaneId) (generator : Generator) :
      (∀ m : LaneId, lanes[m].config = (s.lane m).config) →
      Work s (s.withBlocks lanes profiles fullNoticed repair waitList generator)
  | checker (s : State) (c : Checker) : (CheckerLaw s.checker → CheckerLaw c) → Work s { s with checker := c }
  | issue (s : State) (n : Notice) : Work s (s.issue n)
  | push (s : State) (p : OutParcel) : s.sampleRoom = true → Work s (s.pushSample p)
  | headWaiting (s : State) (b : Bool) : Work s { s with intake := { s.intake with headWaiting := b } }

/-! ### The primitive operations -/

theorem Work.modLane (s : State) (l : LaneId) (f : Lane → Lane)
    (hf : ∀ ln : Lane, (f ln).config = ln.config := by intro _; rfl) : Work s (s.modLane l f) := by
  refine Work.blocks s (s.lanes.set l (f s.lanes[l])) s.profiles s.fullNoticed s.repair s.waitList s.generator
    fun m => ?_
  change ((s.modLane l f).lane m).config = _
  by_cases h : m = l
  · subst h; rw [State.lane_modLane_same, hf]
  · rw [State.lane_modLane_ne s f h]

theorem Work.modDet (s : State) (l : LaneId) (f : Detector → Detector) : Work s (s.modDet l f) := Work.modLane s l _

theorem Work.modHum (s : State) (l : LaneId) (f : LaneHum → LaneHum) : Work s (s.modHum l f) := Work.modLane s l _

theorem Work.count (s : State) (l : LaneId) (c : LaneCounter) (n : Nat) : Work s (s.count l c n) := Work.modLane s l _

theorem Work.lanes (s : State) (v : Vector Lane 16) (h : ∀ m : LaneId, v[m].config = (s.lane m).config) :
    Work s { s with lanes := v } :=
  Work.blocks s v s.profiles s.fullNoticed s.repair s.waitList s.generator h

theorem Work.profiles (s : State) (v : Vector HumProfile 8) : Work s { s with profiles := v } :=
  Work.blocks s s.lanes v s.fullNoticed s.repair s.waitList s.generator fun _ => rfl

theorem Work.fullNoticed (s : State) (b : Bool) : Work s { s with fullNoticed := b } :=
  Work.blocks s s.lanes s.profiles b s.repair s.waitList s.generator fun _ => rfl

theorem Work.repair (s : State) (r : RepairUnit) : Work s { s with repair := r } :=
  Work.blocks s s.lanes s.profiles s.fullNoticed r s.waitList s.generator fun _ => rfl

theorem Work.waitList (s : State) (w : List LaneId) : Work s { s with waitList := w } :=
  Work.blocks s s.lanes s.profiles s.fullNoticed s.repair w s.generator fun _ => rfl

theorem Work.generator (s : State) (g : Generator) : Work s { s with generator := g } :=
  Work.blocks s s.lanes s.profiles s.fullNoticed s.repair s.waitList g fun _ => rfl

theorem Work.wake (s : State) (l : LaneId) : Work s (s.wake l) := by
  rw [State.wake_eq]; exact Work.headWaiting s _

theorem Work.wakeAny (s : State) : Work s s.wakeAny := Work.headWaiting s false

theorem Work.joinWait (s : State) (l : LaneId) : Work s (s.joinWait l) := by
  rw [State.joinWait_eq]; exact Work.waitList s _

theorem Work.leaveWait (s : State) (l : LaneId) : Work s (s.leaveWait l) := Work.waitList s _

theorem Work.modProfile (s : State) (k : ProfileId) (f : HumProfile → HumProfile) : Work s (s.modProfile k f) :=
  Work.profiles s _

/-- Work done on one member of a list after another. -/
theorem Work.foldl {α : Type} (f : State → α → State) (h : ∀ s a, Work s (f s a)) :
    ∀ (xs : List α) (s : State), Work s (xs.foldl f s)
  | [], s => Work.refl s
  | a :: xs, s => Work.trans (h s a) (Work.foldl f h xs (f s a))

/-! ### What work leaves -/

/-- The delivery port after work: notices and sample parcels have joined it, and nothing else has changed. -/
def DeliveryPort.SameSettings (d e : DeliveryPort) : Prop :=
  e.link = d.link ∧ e.transmission = d.transmission ∧ e.form = d.form ∧ e.lastPace = d.lastPace ∧ e.pace = d.pace
    ∧ e.batchTime = d.batchTime ∧ e.replyReserved = d.replyReserved ∧ e.receiver = d.receiver

theorem DeliveryPort.SameSettings.refl (d : DeliveryPort) : d.SameSettings d :=
  ⟨rfl, rfl, rfl, rfl, rfl, rfl, rfl, rfl⟩

theorem DeliveryPort.SameSettings.trans {d e f : DeliveryPort} (h : d.SameSettings e) (k : e.SameSettings f) :
    d.SameSettings f := by
  obtain ⟨a1, a2, a3, a4, a5, a6, a7, a8⟩ := h
  obtain ⟨b1, b2, b3, b4, b5, b6, b7, b8⟩ := k
  exact ⟨b1.trans a1, b2.trans a2, b3.trans a3, b4.trans a4, b5.trans a5, b6.trans a6, b7.trans a7, b8.trans a8⟩

theorem DeliveryPort.sameSettings_issue (d : DeliveryPort) (n : Notice) : d.SameSettings (d.issue n) := by
  unfold DeliveryPort.issue DeliveryPort.join DeliveryPort.commitDue DeliveryPort.commit DeliveryPort.bump
  repeat' split
  all_goals exact ⟨rfl, rfl, rfl, rfl, rfl, rfl, rfl, rfl⟩

@[simp] theorem DeliveryPort.samples_issue (d : DeliveryPort) (n : Notice) : (d.issue n).samples = d.samples := by
  unfold DeliveryPort.issue DeliveryPort.join DeliveryPort.commitDue DeliveryPort.commit DeliveryPort.bump
  repeat' split
  all_goals rfl

/-- What work leaves as it was: the lines, the ramp tables, the control unit, the waiting events, the intake port but for
head waiting, the delivery port's settings, and every configuration record (R3); and the sample queue only grows, inside its 32 places. -/
structure Work.Frame (s t : State) : Prop where
  resetLine : t.resetLine = s.resetLine
  deliveryReady : t.deliveryReady = s.deliveryReady
  ramps : t.ramps = s.ramps
  control : t.control = s.control
  pending : t.pending = s.pending
  intake : t.intake = { s.intake with headWaiting := t.intake.headWaiting }
  settings : s.delivery.SameSettings t.delivery
  config : ∀ m : LaneId, (t.lane m).config = (s.lane m).config
  samples : ∃ ps, t.delivery.samples = s.delivery.samples ++ ps
  capacity : s.delivery.samples.length ≤ 32 → t.delivery.samples.length ≤ 32

theorem Work.frame {s t : State} (h : Work s t) : Work.Frame s t := by
  induction h with
  | refl s => exact ⟨rfl, rfl, rfl, rfl, rfl, rfl, .refl _, fun _ => rfl, ⟨[], by simp⟩, id⟩
  | trans _ _ h k =>
    obtain ⟨p1, e1⟩ := h.samples
    obtain ⟨p2, e2⟩ := k.samples
    refine ⟨k.resetLine.trans h.resetLine, k.deliveryReady.trans h.deliveryReady, k.ramps.trans h.ramps,
      k.control.trans h.control, k.pending.trans h.pending, ?_, h.settings.trans k.settings,
      fun m => (k.config m).trans (h.config m), ⟨p1 ++ p2, by rw [e2, e1, List.append_assoc]⟩, fun c => k.capacity (h.capacity c)⟩
    rw [k.intake, h.intake]
  | blocks _ _ _ _ _ _ _ hc => exact ⟨rfl, rfl, rfl, rfl, rfl, rfl, .refl _, hc, ⟨[], by simp [State.withBlocks]⟩, id⟩
  | checker => exact ⟨rfl, rfl, rfl, rfl, rfl, rfl, .refl _, fun _ => rfl, ⟨[], by simp⟩, id⟩
  | issue s n => exact ⟨rfl, rfl, rfl, rfl, rfl, rfl, s.delivery.sameSettings_issue n, fun _ => rfl, ⟨[], by simp⟩, by simp⟩
  | push s p room =>
    refine ⟨rfl, rfl, rfl, rfl, rfl, rfl, .refl _, fun _ => rfl, ⟨[p], rfl⟩, fun _ => ?_⟩
    have : s.delivery.samples.length < 32 := of_decide_eq_true room
    simp only [State.samples_pushSample, List.length_append, List.length_singleton]
    omega
  | headWaiting => exact ⟨rfl, rfl, rfl, rfl, rfl, rfl, .refl _, fun _ => rfl, ⟨[], by simp⟩, id⟩

/-- Work keeps the law of the checker (R126). -/
theorem Work.checkerLaw {s t : State} (h : Work s t) : CheckerLaw s.checker → CheckerLaw t.checker := by
  induction h with
  | refl => exact id
  | trans _ _ h k => exact fun c => k (h c)
  | blocks => exact id
  | checker _ _ h => exact h
  | issue => exact id
  | push => exact id
  | headWaiting => exact id

/-! ### Notices keep the message queue and the batch in bounds -/

/-- Messages, with the place set aside for a REPLY, and the batch stand within their capacities (R132). -/
def DeliveryPort.MessagesInBounds (d : DeliveryPort) : Prop :=
  d.messages.length + (if d.replyReserved then 1 else 0) ≤ 8 ∧ d.batch.length ≤ 8

theorem DeliveryPort.MessagesInBounds.issue {d : DeliveryPort} (n : Notice) (h : d.MessagesInBounds) :
    (d.issue n).MessagesInBounds := by
  obtain ⟨hm, hb⟩ := h
  unfold DeliveryPort.issue
  split
  · rename_i hlt
    split
    · unfold DeliveryPort.commitDue
      split
      · rename_i room
        have room' : d.messages.length + (if d.replyReserved then 1 else 0) < 8 :=
          of_decide_eq_true room
        refine ⟨?_, by simp [DeliveryPort.commit]⟩
        change (d.messages ++ [_]).length + (if d.replyReserved then 1 else 0) ≤ 8
        rw [List.length_append, List.length_singleton]
        omega
      · refine ⟨hm, ?_⟩
        simp only [DeliveryPort.join, List.length_append, List.length_singleton]
        simp only [Config.batchSize] at hlt; omega
    · refine ⟨hm, ?_⟩
      simp only [DeliveryPort.join, List.length_append, List.length_singleton]
      simp only [Config.batchSize] at hlt; omega
  · exact ⟨hm, hb⟩

/-- Work keeps the message queue and the batch in bounds. -/
theorem Work.messagesInBounds {s t : State} (h : Work s t) :
    s.delivery.MessagesInBounds → t.delivery.MessagesInBounds := by
  induction h with
  | refl => exact id
  | trans _ _ h k => exact fun c => k (h c)
  | blocks => exact id
  | checker => exact id
  | issue _ n => exact fun c => c.issue n
  | push => exact id
  | headWaiting => exact id

/-! ### Notices keep the laws of the batch -/

/-- The laws of R156 to R158 on the batch, with the place set aside for a REPLY counted as taken. -/
def DeliveryPort.BatchInOrder (d : DeliveryPort) : Prop :=
  (d.batch.length = 8 → d.commitPending = true)
    ∧ (d.commitPending = true → d.batch ≠ [] ∧ d.messages.length + (if d.replyReserved then 1 else 0) = 8)
    ∧ (d.timer.counting = true ↔ d.batch ≠ [] ∧ d.commitPending = false)

/-- A batch that a commit pending has found full of messages stays so while it grows. -/
theorem DeliveryPort.BatchInOrder.issue {d : DeliveryPort} (n : Notice) (hm : d.MessagesInBounds)
    (h : d.BatchInOrder) : (d.issue n).BatchInOrder := by
  obtain ⟨h8, hp, ht⟩ := h
  obtain ⟨hmsg, hb⟩ := hm
  unfold DeliveryPort.issue
  split
  · rename_i hlt
    split
    · rename_i hfull
      unfold DeliveryPort.commitDue
      split
      · refine ⟨?_, ?_, ?_⟩ <;> simp [DeliveryPort.commit, Timer.idle]
      · rename_i room
        have room' : ¬ d.messages.length + (if d.replyReserved then 1 else 0) < 8 := fun c =>
          room (decide_eq_true c)
        refine ⟨fun _ => rfl, fun _ => ⟨?_, ?_⟩, ?_⟩
        · simp [DeliveryPort.join]
        · change d.messages.length + (if d.replyReserved then 1 else 0) = 8
          omega
        · simp [Timer.idle]
    · rename_i hne
      refine ⟨fun c => absurd c hne, fun c => ⟨by simp [DeliveryPort.join], (hp c).2⟩, ?_⟩
      by_cases he : d.batch = []
      · have hc : d.commitPending = false := by
          cases hcp : d.commitPending with
          | false => rfl
          | true => exact absurd he (hp hcp).1
        simp [DeliveryPort.join, he, hc]
      · have hi : d.batch.isEmpty = false := by simpa using he
        simp only [DeliveryPort.join, hi, Bool.false_eq_true, if_false]
        rw [ht]
        simp [he]
  · exact ⟨h8, hp, ht⟩

/-- Work keeps the laws of the batch. -/
theorem Work.batchInOrder {s t : State} (h : Work s t) :
    s.delivery.MessagesInBounds → s.delivery.BatchInOrder → t.delivery.BatchInOrder := by
  induction h with
  | refl => exact fun _ b => b
  | trans w _ h k => exact fun m b => k (w.messagesInBounds m) (h m b)
  | blocks => exact fun _ b => b
  | checker => exact fun _ b => b
  | issue _ n => exact fun m b => b.issue n m
  | push => exact fun _ b => b
  | headWaiting => exact fun _ b => b

end Sys2Proof.Machine
end

