-- ==== Sys2Proof/Laws/Operations.lean ====
section
/-! SUPPORT. Every shared operation of the lanes, the detector, the hold line, output assembly, the hum canceller and the
pattern unit is work (Sys2Proof/Laws/Work.lean). -/

namespace Sys2Proof.Machine

/-! ### Pattern unit -/

theorem State.setCheckerState_work (s : State) (st : CheckerState) (h : st.lawful = true) :
    Work s (s.setCheckerState st) :=
  Work.checker s _ fun c => ⟨c.1, c.2.1, c.2.2.1, h⟩

theorem State.checkerSearch_work (s : State) (seq : SeqNum) (d : Word) : Work s (s.checkerSearch seq d) := by
  unfold State.checkerSearch
  have h := s.setCheckerState_work .search rfl
  dsimp only
  split
  · exact h.trans (.issue _ _)
  · exact h

theorem State.checkerLoss_work (s : State) (l : LaneId) (seq : SeqNum) (d : Word) : Work s (s.checkerLoss l seq d) := by
  unfold State.checkerLoss
  split
  · exact s.checkerSearch_work _ _
  · exact .refl s

theorem State.generatorReel_work (s : State) (l : LaneId) : Work s (s.generatorReel l) := by
  unfold State.generatorReel
  split
  · exact .generator s _
  · exact .refl s

theorem State.generatorTaken_work (s : State) (l : LaneId) : Work s (s.generatorTaken l) := by
  unfold State.generatorTaken
  split
  · exact .generator s _
  · exact .refl s

/-! ### Hum canceller -/

/-- What a swap does to a lane (R35, step 4). -/
theorem State.lane_swap (s : State) (k : ProfileId) (a : Option LaneId) (q : SeqNum) (m : LaneId) :
    (s.swap k a q).lane m = (s.lane m).reducePhase k (s.profile k).swapped.servingBank.length := by
  unfold State.swap
  dsimp only
  rw [State.lane_issue]
  simp [State.lane]

theorem Lane.config_reducePhase (ln : Lane) (k : ProfileId) (len : Nat) : (ln.reducePhase k len).config = ln.config := by
  unfold Lane.reducePhase
  split <;> rfl

theorem State.swap_work (s : State) (k : ProfileId) (lane : Option LaneId) (seq : SeqNum) :
    Work s (s.swap k lane seq) := by
  refine Work.trans (Work.trans (.modProfile s k fun _ => (s.profile k).swapped) (.lanes _ _ fun m => ?_)) (.issue _ _)
  rw [Fin.getElem_fin, Vector.getElem_map]
  exact Lane.config_reducePhase _ _ _

theorem State.swapIfUnused_work (s : State) (k : ProfileId) : Work s (s.swapIfUnused k) := by
  unfold State.swapIfUnused
  split
  · exact s.swap_work _ _ _
  · exact .refl s

theorem State.userLeft_work (s : State) (k : Option ProfileId) : Work s (s.userLeft k) := by
  unfold State.userLeft
  split
  · exact s.swapIfUnused_work _
  · exact .refl s

theorem State.humBegin_work (s : State) (l : LaneId) (p : Option ProfileId) (seq : SeqNum) :
    Work s (s.humBegin l p seq) := by
  unfold State.humBegin
  split
  · rename_i k
    have h1 : Work s (if (s.profile k).swapPending then s.swap k (some l) seq else s) := by
      split
      · exact s.swap_work _ _ _
      · exact .refl s
    dsimp only
    refine h1.trans ?_
    generalize (if (s.profile k).swapPending then s.swap k (some l) seq else s) = s1
    have h2 : Work s1 (if (s1.lane l).hum.profile ≠ some k ∨ (s1.lane l).hum.restart = true then
        s1.modHum l fun _ => { profile := some k, index := (s1.profile k).restartIndex, restart := false }
        else s1) := by
      split
      · exact .modHum _ _ _
      · exact .refl _
    split
    · exact h2.trans (State.userLeft_work _ _)
    · exact h2
  · exact (Work.modHum _ _ _).trans (State.userLeft_work _ _)

theorem State.spliceResync_work (s : State) (l : LaneId) (p : Option ProfileId) : Work s (s.spliceResync l p) := by
  unfold State.spliceResync
  repeat' split
  all_goals first | exact .refl _ | exact .modHum _ _ _

theorem State.humAdvance_work (s : State) (l : LaneId) (p : Option ProfileId) : Work s (s.humAdvance l p) := by
  unfold State.humAdvance
  split
  · exact .modHum _ _ _
  · exact .refl _

theorem State.reelStartResync_work (s : State) (l : LaneId) : Work s (s.reelStartResync l) := by
  unfold State.reelStartResync
  dsimp only
  repeat' split
  all_goals first | exact .refl _ | exact .modHum _ _ _

/-! ### Damage detector -/

theorem State.dropRepairEntry_work (s : State) (l : LaneId) (n : Nat) : Work s (s.dropRepairEntry l n) := .repair s _

theorem State.missRun_work (s : State) (l : LaneId) (seq : SeqNum) : Work s (s.missRun l seq) := by
  unfold State.missRun
  dsimp only
  split
  · exact .count _ _ _ _
  · exact ((Work.count s l _ _).trans (.fullNoticed _ _)).trans (.issue _ _)

theorem State.openNewRun_work (s : State) (l : LaneId) (seq : SeqNum) (cs : Causes) : Work s (s.openNewRun l seq cs) := by
  unfold State.openNewRun
  split
  · exact .modDet _ _ _
  · exact s.missRun_work _ _

theorem State.openRun_work (s : State) (l : LaneId) (c : LaneConfig) (seq : SeqNum) (cs : Causes) :
    Work s (s.openRun l c seq cs) := by
  unfold State.openRun
  dsimp only
  split
  · split
    · exact (s.dropRepairEntry_work _ _).trans (.modDet _ _ _)
    · exact s.openNewRun_work _ _ _
  · exact s.openNewRun_work _ _ _

theorem State.joinRun_work (s : State) (l : LaneId) (c : LaneConfig) (seq : SeqNum) (cs : Causes) :
    Work s (s.joinRun l c seq cs) := by
  unfold State.joinRun
  split
  · exact .modDet _ _ _
  · exact s.openRun_work _ _ _ _

theorem State.reportRelease_work (s : State) (l : LaneId) (r : RunRecord) : Work s (s.reportRelease l r) := by
  unfold State.reportRelease
  split
  · exact .count _ _ _ _
  · exact (Work.count s l _ _).trans (.issue _ _)
  all_goals exact .refl _

theorem State.releaseRuns_work (s : State) (l : LaneId) : Work s (s.releaseRuns l) := by
  unfold State.releaseRuns
  dsimp only
  split
  · exact .refl _
  · exact ((Work.modDet s l _).trans (.fullNoticed _ _)).trans (Work.foldl _ (fun s r => s.reportRelease_work l r) _ _)

theorem State.closeRun_work (s : State) (l : LaneId) (c : LaneConfig) (r : RunRecord) (a : Option Sample) :
    Work s (s.closeRun l c r a) := by
  unfold State.closeRun
  dsimp only
  refine Work.trans ?_ (State.releaseRuns_work _ _)
  split
  · exact (Work.modDet s l _).trans (.repair _ _)
  · exact .modDet _ _ _

theorem State.calmSample_work (s : State) (l : LaneId) (c : LaneConfig) (v : Sample) : Work s (s.calmSample l c v) := by
  unfold State.calmSample
  dsimp only
  split
  · split
    · exact s.closeRun_work _ _ _ _
    · exact .modDet _ _ _
  · exact .refl _

theorem State.detect_work (s : State) (l : LaneId) (c : LaneConfig) (seq : SeqNum) (spans : List (Causes × Nat))
    (v : Sample) : Work s (s.detect l c seq spans v) := by
  unfold State.detect
  dsimp only
  refine (Work.modDet s l fun d => d.beginSpans spans).trans ?_
  generalize s.modDet l (fun d => d.beginSpans spans) = s1
  refine Work.trans ?_ (.modDet _ _ _)
  split
  · exact (State.joinRun_work _ _ _ _ _).trans (.modDet _ _ _)
  · split
    · exact State.joinRun_work _ _ _ _ _
    · exact State.calmSample_work _ _ _ _

theorem State.spliceLate_work (s : State) (l : LaneId) (seq : SeqNum) : Work s (s.spliceLate l seq) :=
  (Work.count s l _ _).trans (.issue _ _)

theorem State.lateMarks_work (s : State) (l : LaneId) : Work s (s.lateMarks l) := by
  unfold State.lateMarks
  split
  · exact .refl _
  · exact (Work.modLane s l _).trans (Work.foldl _ (fun s (m : MarkEntry) => s.spliceLate_work l m.seq) _ _)

theorem State.watch_work (s : State) (l : LaneId) (seq : SeqNum) (ws : List Sample) : Work s (s.watch l seq ws) := by
  unfold State.watch
  split
  · exact (Work.count s l _ _).trans (.issue _ _)
  · exact .refl _

/-! ### Hiss gate and output assembly -/

theorem State.gateStep_work (s : State) (l : LaneId) (b : AssemblyBody) : Work s (s.gateStep l b) := by
  unfold State.gateStep
  dsimp only
  repeat' split
  · exact (Work.modLane s l _).trans (.issue _ _)
  · exact .modLane _ _ _
  · exact .modLane _ _ _

theorem State.setAssembly_work (s : State) (l : LaneId) (a : Assembly) : Work s (s.setAssembly l a) := .modLane _ _ _

/-- A part placed into a free place. -/
theorem State.placePart_work (s : State) (l : LaneId) (room : s.sampleRoom = true) : Work s (s.placePart l) := by
  unfold State.placePart
  split
  · exact ((Work.push s _ room).trans (State.setAssembly_work _ _ _)).trans (.wake _ _)
  · exact ((Work.push s _ room).trans (State.setAssembly_work _ _ _)).trans (.wake _ _)
  all_goals exact .refl _

theorem State.placeParts_work : ∀ (n : Nat) (l : LaneId) (s : State), Work s (State.placeParts n l s)
  | 0, _, s => .refl s
  | n + 1, l, s => by
    unfold State.placeParts
    split
    · rename_i h
      simp only [Bool.and_eq_true] at h
      exact (s.placePart_work l h.2).trans (State.placeParts_work n l _)
    · exact .refl s

theorem State.placeAssembly_work (s : State) (l : LaneId) : Work s (s.placeAssembly l) := by
  unfold State.placeAssembly
  dsimp only
  split
  · exact State.placeParts_work _ _ _
  · exact (State.placeParts_work _ _ _).trans (.joinWait _ _)

/-- A trailing mark placed into a free place. -/
theorem State.placeTrailing_work (s : State) (l : LaneId) (room : s.sampleRoom = true) :
    Work s (s.placeTrailing l) := by
  unfold State.placeTrailing
  split
  · exact .refl _
  · dsimp only
    split
    · exact ((Work.modLane s l _).trans (State.spliceLate_work _ _ _)).trans
        (.push _ _ (by simpa [State.sampleRoom, State.spliceLate] using room))
    · exact (Work.modLane s l _).trans (.push _ _ room)

theorem State.placeTrailings_work : ∀ (n : Nat) (l : LaneId) (s : State), Work s (State.placeTrailings n l s)
  | 0, _, s => .refl s
  | n + 1, l, s => by
    unfold State.placeTrailings
    split
    · rename_i h
      simp only [Bool.and_eq_true] at h
      exact (s.placeTrailing_work l h.2).trans (State.placeTrailings_work n l _)
    · exact .refl s

theorem State.placeTrailingMarks_work (s : State) (l : LaneId) : Work s (s.placeTrailingMarks l) := by
  unfold State.placeTrailingMarks
  dsimp only
  split
  · exact (State.placeTrailings_work _ _ _).trans (.joinWait _ _)
  · exact State.placeTrailings_work _ _ _

theorem State.completeAssembly_work (s : State) (l : LaneId) (b : AssemblyBody) : Work s (s.completeAssembly l b) :=
  ((s.gateStep_work l b).trans (.modLane _ _ _)).trans (State.placeAssembly_work _ _)

theorem State.takeWord_work (s : State) (l : LaneId) (r : Route) : Work s (s.takeWord l r) := by
  unfold State.takeWord
  split
  · exact s.generatorTaken_work _
  · exact .refl _

theorem State.collect_work (s : State) (l : LaneId) (p : HeldParcel) (v : Sample) (t : Treatment) (f : Bool) :
    Work s (s.collect l p v t f) := by
  unfold State.collect
  dsimp only
  split
  · exact ((State.takeWord_work s l _).trans (State.setAssembly_work _ _ _)).trans (State.completeAssembly_work _ _ _)
  · exact (State.takeWord_work s l _).trans (State.setAssembly_work _ _ _)

/-! ### Hold line and repair unit -/

theorem State.changeState_work (s : State) (l : LaneId) (st : LaneState) : Work s (s.changeState l st) := by
  unfold State.changeState
  dsimp only
  split
  · exact (((Work.modLane s l _).trans (.wake _ _)).trans (State.userLeft_work _ _)).trans (State.checkerLoss_work _ _ _ _)
  · exact (Work.modLane s l _).trans (.wake _ _)

theorem State.becomeOff_work (s : State) (l : LaneId) : Work s (s.becomeOff l) :=
  (s.changeState_work l .off).trans (.modLane _ _ _)

theorem State.settle_work (s : State) (l : LaneId) : Work s (s.settle l) := by
  unfold State.settle
  dsimp only
  split
  · split
    · exact (s.becomeOff_work l).trans (.issue _ _)
    · exact (s.changeState_work l _).trans (.issue _ _)
    · exact ((s.changeState_work l _).trans (.count _ _ _ _)).trans (.issue _ _)
    all_goals exact .refl _
  · exact .refl _

theorem Lane.config_overtake (ln : Lane) (x : Nat) : (ln.overtake x).config = ln.config := by
  unfold Lane.overtake
  repeat' split
  all_goals rfl

theorem State.departOne_work (s : State) (l : LaneId) : Work s (s.departOne l) := by
  unfold State.departOne
  split
  · exact .refl _
  · dsimp only
    exact ((((Work.modLane s l _ fun ln => ln.config_overtake _).trans (.modLane _ _ _)).trans (.wake _ _)).trans
      (State.collect_work _ _ _ _ _ _)).trans (State.releaseRuns_work _ _)

theorem State.departUpTo_work : ∀ (n : Nat) (l : LaneId) (s : State), Work s (State.departUpTo n l s)
  | 0, _, s => .refl s
  | n + 1, l, s => by
    unfold State.departUpTo
    split
    · exact (s.departOne_work l).trans (State.departUpTo_work n l _)
    · exact .refl s

theorem State.depart_work (s : State) (l : LaneId) : Work s (s.depart l) :=
  ((State.departUpTo_work _ _ _).trans (State.placeTrailingMarks_work _ _)).trans (State.settle_work _ _)

theorem State.flush_work (s : State) (l : LaneId) : Work s (s.flush l) := by
  unfold State.flush
  dsimp only
  refine (Work.modDet s l Detector.cut).trans ?_
  generalize s.modDet l Detector.cut = s1
  exact (((State.departUpTo_work _ l s1).trans (State.releaseRuns_work _ l)).trans
    (State.placeTrailingMarks_work _ l)).trans (State.settle_work _ l)

theorem State.beginDrain_work (s : State) (l : LaneId) (t : DrainTarget) : Work s (s.beginDrain l t) := by
  unfold State.beginDrain
  dsimp only
  split
  · exact (s.changeState_work l _).trans (State.settle_work _ _)
  · exact (s.changeState_work l _).trans (State.flush_work _ _)

theorem State.abandonRepair_work (s : State) (l : LaneId) (n : Nat) : Work s (s.abandonRepair l n) := by
  unfold State.abandonRepair
  split
  · exact (Work.repair s _).trans (.wake _ _)
  · exact .refl _

theorem State.takeDeadline_work (s : State) (l : LaneId) (n : Nat) : Work s (s.takeDeadline l n) :=
  (((s.dropRepairEntry_work l n).trans (State.abandonRepair_work _ _ _)).trans (.modDet _ _ _)).trans
    (State.depart_work _ _)

theorem State.deadlines_work : ∀ (n : Nat) (l : LaneId) (c : Nat) (s : State), Work s (State.deadlines n l c s)
  | 0, _, _, s => .refl s
  | n + 1, l, c, s => by
    unfold State.deadlines
    split
    · exact (s.takeDeadline_work l _).trans (State.deadlines_work n l c _)
    · exact .refl s

/-! ### Entry -/

theorem State.enterRunning_work (s : State) (l : LaneId) : Work s (s.enterRunning l) := by
  unfold State.enterRunning
  dsimp only
  split
  · exact (((s.changeState_work l _).trans (.modLane _ _ _)).trans (.modLane _ _ _)).trans (State.generatorReel_work _ _)
  · exact (s.changeState_work l _).trans (.modLane _ _ _)

theorem State.gapFound_work (s : State) (l : LaneId) (n : SeqNum) (d : Nat) : Work s (s.gapFound l n d) :=
  ((Work.count s l _ _).trans (.count _ _ _ _)).trans (.issue _ _)

theorem State.continuity_work (s : State) (l : LaneId) (n : SeqNum) : Work s (s.continuity l n) := by
  unfold State.continuity
  dsimp only
  split
  · exact .modLane _ _ _
  · exact (s.gapFound_work l n _).trans (.modLane _ _ _)

theorem State.countEntered_work (s : State) (l : LaneId) (n : Nat) : Work s (s.countEntered l n) :=
  (Work.count s l _ _).trans (.count _ _ _ _)

theorem State.enterSample_work (s : State) (l : LaneId) (e : EntryPlan) (i : Nat) (raw : Sample) :
    Work s (s.enterSample l e i raw) := by
  unfold State.enterSample
  dsimp only
  refine Work.trans (t := if e.spliceOffsets.contains i then s.spliceResync l e.config.humProfile else s) ?_ ?_
  · split
    · exact s.spliceResync_work _ _
    · exact .refl _
  · exact ((State.humAdvance_work _ _ _).trans (State.detect_work _ _ _ _ _ _)).trans (.modLane _ _ _)

theorem State.enterSamples_work : ∀ (vs : List Sample) (i : Nat) (l : LaneId) (e : EntryPlan) (s : State),
    Work s (State.enterSamples vs i l e s)
  | [], _, _, _, s => .refl s
  | v :: vs, i, l, e, s => (s.enterSample_work l e i v).trans (State.enterSamples_work vs (i + 1) l e _)

theorem State.prepareRestore_work (s : State) (l : LaneId) (e : EntryPlan) (ws : List Sample) :
    Work s (s.prepareRestore l e ws) := by
  unfold State.prepareRestore
  dsimp only
  refine (s.watch_work l e.seq ws).trans ?_
  generalize s.watch l e.seq ws = s1
  refine (Work.modLane s1 l fun ln => ln.resolveSplices e.seq).trans ?_
  generalize (s1.modLane l fun ln => ln.resolveSplices e.seq) = s2
  refine (s2.continuity_work l e.seq).trans ?_
  generalize s2.continuity l e.seq = s3
  refine Work.trans ?_ ((State.lateMarks_work _ _).trans (State.humBegin_work _ _ _ _))
  split
  · exact .modDet _ _ _
  · exact .refl _

theorem State.enterRestore_work (s : State) (l : LaneId) (seq : SeqNum) (ws : List Sample) (r : Bool) :
    Work s (s.enterRestore l seq ws r) :=
  (((s.prepareRestore_work l _ ws).trans (State.enterSamples_work _ _ _ _ _)).trans (State.countEntered_work _ _ _)).trans
    (State.depart_work _ _)

theorem State.enterPlain_work (s : State) (l : LaneId) (seq : SeqNum) (ws : List Sample) (r : Bool) :
    Work s (s.enterPlain l seq ws r) := by
  unfold State.enterPlain
  dsimp only
  refine ((s.watch_work l seq ws).trans (State.continuity_work _ l seq)).trans ?_
  generalize (s.watch l seq ws).continuity l seq = s1
  refine ((Work.modLane s1 l fun ln => ln.resolveSplices seq).trans (State.lateMarks_work _ l)).trans ?_
  generalize (s1.modLane l fun ln => ln.resolveSplices seq).lateMarks l = s2
  refine ((Work.modDet s2 l fun d => d.plainEntry ws).trans (State.releaseRuns_work _ l)).trans ?_
  generalize (s2.modDet l fun d => d.plainEntry ws).releaseRuns l = s3
  refine ((s3.humBegin_work l none seq).trans (Work.modLane _ l fun ln => ln.appendParcel seq ws r)).trans ?_
  exact (State.countEntered_work _ l _).trans (State.depart_work _ l)

@[simp] theorem State.samples_continuity (s : State) (l : LaneId) (n : SeqNum) :
    (s.continuity l n).delivery.samples = s.delivery.samples := by
  unfold State.continuity State.gapFound
  dsimp only
  split <;> simp

theorem State.takeEcho_work (s : State) (l : LaneId) (seq : SeqNum) (ws : List Sample) (r : Bool)
    (room : s.sampleRoom = true) : Work s (s.takeEcho l seq ws r) := by
  unfold State.takeEcho
  dsimp only
  refine (((s.continuity_work l seq).trans (.modLane _ _ _)).trans (State.countEntered_work _ _ _)).trans (.push _ _ ?_)
  simpa [State.sampleRoom, State.countEntered] using room

/-! ### The checker's words -/

/-- The checker with a word, and an error if `bad`, counted and its state replaced (R126). -/
def Checker.counted (c : Checker) (bad : Bool) (st : CheckerState) : Checker :=
  { c with
    state := st
    wordCount := satBump c.wordCount 1
    wordSaturated := c.wordSaturated || decide (satBump c.wordCount 1 = BitVec.allOnes 32)
    errorCount := if bad then satBump c.errorCount 1 else c.errorCount
    errorSaturated := c.errorSaturated || (bad && decide (satBump c.errorCount 1 = BitVec.allOnes 24)) }

theorem toNat_satBump_one {w : Nat} (c : BitVec w) :
    (satBump c 1).toNat = if c.toNat + 1 < 2 ^ w then c.toNat + 1 else 2 ^ w - 1 := by
  unfold satBump
  split
  · rename_i h
    rw [BitVec.toNat_add, BitVec.toNat_ofNat, Nat.add_mod_mod, Nat.mod_eq_of_lt h]
  · simp

/-- Counting keeps the law of the counters, and the given state stands. -/
theorem Checker.law_counted {c : Checker} (bad : Bool) {st : CheckerState} (hst : st.lawful = true)
    (h : CheckerLaw c) : CheckerLaw (c.counted bad st) := by
  obtain ⟨h1, h2, h3, _⟩ := h
  have e32 : ∀ x : BitVec 32, x = BitVec.allOnes 32 ↔ x.toNat = 4294967295 := by
    intro x; rw [← BitVec.toNat_inj]; simp
  have e24 : ∀ x : BitVec 24, x = BitVec.allOnes 24 ↔ x.toNat = 16777215 := by
    intro x; rw [← BitVec.toNat_inj]; simp
  have b32 := c.wordCount.isLt
  have b24 := c.errorCount.isLt
  refine ⟨?_, ?_, ?_, hst⟩
  · simp only [Checker.counted]
    cases bad <;> simp only [toNat_satBump_one, Bool.false_eq_true, if_true, if_false] <;> (repeat' split) <;> omega
  · simp only [Checker.counted, Bool.or_eq_true, decide_eq_true_eq, e32, toNat_satBump_one, h2]
    split <;> omega
  · cases bad
    · simpa [Checker.counted] using h3
    · simp only [Checker.counted, Bool.or_eq_true, Bool.and_eq_true, decide_eq_true_eq, e24, toNat_satBump_one, h3,
        true_and, if_true]
      split <;> omega

/-- The history keeps at most 48 results (R125). -/
theorem length_historyJoin (h : List CheckResult) (r : CheckResult) (hl : h.length ≤ 48) :
    (historyJoin h r).length ≤ 48 := by
  simp only [historyJoin, Config.historySize, List.length_drop, List.length_append, List.length_singleton]
  omega

/-- Notices issued one after another. -/
def State.issues (s : State) (ns : List Notice) : State := ns.foldl State.issue s

theorem State.issues_work (s : State) (ns : List Notice) : Work s (s.issues ns) := Work.foldl _ (fun s n => .issue s n) ns s

theorem State.issues_issues (s : State) (ns ms : List Notice) : (s.issues ns).issues ms = s.issues (ns ++ ms) := by
  simp [State.issues]

@[simp] theorem State.checker_issues : ∀ (ns : List Notice) (s : State), (s.issues ns).checker = s.checker
  | [], _ => rfl
  | n :: ns, s => State.checker_issues ns (s.issue n)

/-- Notices do not look at the checker. -/
theorem State.issues_withChecker : ∀ (ns : List Notice) (s : State) (c : Checker),
    { s.issues ns with checker := c } = State.issues { s with checker := c } ns
  | [], _, _ => rfl
  | n :: ns, s, c => State.issues_withChecker ns (s.issue n) c

/-- The checker after a word is counted. -/
def Checker.wordCounted (c : Checker) : Checker :=
  if c.wordCount = BitVec.allOnes 32 then c
  else
    { c with
      wordCount := satBump c.wordCount 1
      wordSaturated := c.wordSaturated || decide (satBump c.wordCount 1 = BitVec.allOnes 32) }

/-- The checker after an error is counted. -/
def Checker.errorCounted (c : Checker) : Checker :=
  if c.errorCount = BitVec.allOnes 24 then c
  else
    { c with
      errorCount := satBump c.errorCount 1
      errorSaturated := c.errorSaturated || decide (satBump c.errorCount 1 = BitVec.allOnes 24) }

/-- Counting a word does not look at the checker's state. -/
theorem Checker.wordCounted_withState (c : Checker) (st : CheckerState) :
    Checker.wordCounted { c with state := st } = { c.wordCounted with state := st } := by
  by_cases h : c.wordCount = BitVec.allOnes 32 <;> simp only [Checker.wordCounted, h, if_true, if_false]

/-- Counting an error does not look at the checker's state. -/
theorem Checker.errorCounted_withState (c : Checker) (st : CheckerState) :
    Checker.errorCounted { c with state := st } = { c.errorCounted with state := st } := by
  by_cases h : c.errorCount = BitVec.allOnes 24 <;> simp only [Checker.errorCounted, h, if_true, if_false]

theorem State.countCheckedWord_eq (s : State) :
    ∃ ns, s.countCheckedWord = State.issues { s with checker := s.checker.wordCounted } ns := by
  unfold State.countCheckedWord Checker.wordCounted
  dsimp only
  split
  · exact ⟨[], rfl⟩
  · split
    · rename_i h
      exact ⟨[s.checker.notice .checkSaturated 0 1], by simp [h, State.issues]⟩
    · rename_i h
      refine ⟨[], ?_⟩
      simp only [State.issues, List.foldl_nil, decide_eq_false h, Bool.or_false]

theorem State.countCheckedError_eq (s : State) :
    ∃ ns, s.countCheckedError = State.issues { s with checker := s.checker.errorCounted } ns := by
  unfold State.countCheckedError Checker.errorCounted
  dsimp only
  split
  · exact ⟨[], rfl⟩
  · split
    · rename_i h
      exact ⟨[s.checker.notice .checkSaturated 0 2], by simp [h, State.issues]⟩
    · rename_i h
      refine ⟨[], ?_⟩
      simp only [State.issues, List.foldl_nil, decide_eq_false h, Bool.or_false]

/-- Under the law, counting by the model's two steps is `Checker.counted`. -/
theorem Checker.counted_eq {c : Checker} (h : CheckerLaw c) (st : CheckerState) :
    { c.wordCounted with state := st } = c.counted false st
      ∧ { c.wordCounted.errorCounted with state := st } = c.counted true st := by
  obtain ⟨h1, h2, h3, _⟩ := h
  have e32 : ∀ x : BitVec 32, x = BitVec.allOnes 32 ↔ x.toNat = 4294967295 := by
    intro x; rw [← BitVec.toNat_inj]; simp
  have e24 : ∀ x : BitVec 24, x = BitVec.allOnes 24 ↔ x.toNat = 16777215 := by
    intro x; rw [← BitVec.toNat_inj]; simp
  have a32 : satBump (BitVec.allOnes 32) 1 = BitVec.allOnes 32 := by decide
  have a24 : satBump (BitVec.allOnes 24) 1 = BitVec.allOnes 24 := by decide
  rw [← e32] at h2
  rw [← e24] at h3
  obtain ⟨lane, setting, state, w, e, ws, es⟩ := c
  dsimp only at h2 h3
  by_cases hw : w = BitVec.allOnes 32 <;> by_cases he : e = BitVec.allOnes 24
  all_goals
    constructor <;>
    simp only [Checker.wordCounted, Checker.errorCounted, Checker.counted, hw, he, if_true, if_false, a32, a24,
      h2.2, h3.2, Bool.false_eq_true, decide_true, Bool.or_true, Bool.or_false, Bool.false_and, Bool.true_and]

theorem lawful_locked {e : Word} {h : List CheckResult} (hl : h.length ≤ 48) (hm : ¬Config.lossCount ≤ mismatches h) :
    (CheckerState.locked e h).lawful = true := by
  simp only [Config.lossCount, Nat.not_le] at hm
  simp [CheckerState.lawful, hl, hm]

/-- A word taken in LOCKED (R125) is work: the checker moves once and notices are issued. -/
theorem State.checkerCompare_work (s : State) (seq : SeqNum) (w e : Word) (h : List CheckResult)
    (hs : s.checker.state = .locked e h) : Work s (s.checkerCompare seq w e h) := by
  have build : ∀ (c : Checker) (ns : List Notice), (CheckerLaw s.checker → CheckerLaw c) →
      Work s (State.issues { s with checker := c } ns) :=
    fun c ns hc => (Work.checker s c hc).trans (State.issues_work _ ns)
  have hlen : CheckerLaw s.checker → h.length ≤ 48 := by
    intro hc
    have hst := hc.2.2.2
    rw [hs] at hst
    simp only [CheckerState.lawful, Bool.and_eq_true, decide_eq_true_eq] at hst
    exact hst.1
  unfold State.checkerCompare
  dsimp only
  generalize hr : (if w = e then CheckResult.matched else CheckResult.mismatched) = r
  generalize s.checker.setting.following e = e'
  have hlen' : CheckerLaw s.checker → (historyJoin h r).length ≤ 48 := fun hc => length_historyJoin h r (hlen hc)
  generalize historyJoin h r = h' at hlen'
  obtain ⟨ns1, q1⟩ := (s.setCheckerState (.locked e' h')).countCheckedWord_eq
  have c1 : (s.setCheckerState (.locked e' h')).checker.wordCounted
      = { s.checker.wordCounted with state := .locked e' h' } := Checker.wordCounted_withState _ _
  rw [q1, c1]
  have fin : ∀ (bad : Bool) (c : Checker) (ns : List Notice),
      (∀ st, CheckerLaw s.checker → { c with state := st } = s.checker.counted bad st) →
      c.state = .locked e' h' →
      Work s (if Config.lossCount ≤ mismatches h' then
          (State.issues { s with checker := c } ns).checkerSearch seq 0
        else State.issues { s with checker := c } ns) := by
    intro bad c ns hc hst
    split
    · have hl : (State.issues { s with checker := c } ns).checker.state.isLocked = true := by
        rw [State.checker_issues]; change c.state.isLocked = true; rw [hst]; rfl
      have : (State.issues { s with checker := c } ns).checkerSearch seq 0
          = State.issues { s with checker := { c with state := .search } } (ns ++ [c.notice .checkLost seq 0]) := by
        unfold State.checkerSearch State.setCheckerState
        dsimp only
        rw [if_pos hl, State.issues_withChecker, ← State.issues_issues, State.checker_issues]
        rfl
      rw [this]
      refine build _ _ fun hlaw => ?_
      rw [hc .search hlaw]
      exact Checker.law_counted bad rfl hlaw
    · rename_i hm
      refine build _ _ fun hlaw => ?_
      have : c = { c with state := .locked e' h' } := by rw [← hst]
      rw [this, hc _ hlaw]
      exact Checker.law_counted bad (lawful_locked (hlen' hlaw) hm) hlaw
  by_cases hb : r = .mismatched
  · rw [if_pos hb]
    obtain ⟨ns2, q2⟩ := (State.issues { s.setCheckerState (.locked e' h') with
      checker := { s.checker.wordCounted with state := .locked e' h' } } ns1).countCheckedError_eq
    rw [q2, State.checker_issues, State.issues_withChecker, State.issues_issues]
    refine fin true _ _ (fun st hlaw => ?_) ?_
    · rw [Checker.errorCounted_withState]
      exact (Checker.counted_eq hlaw st).2
    · rw [Checker.errorCounted_withState]
  · rw [if_neg hb]
    exact fin false _ _ (fun st hlaw => (Checker.counted_eq hlaw st).1) rfl

/-- One word taken by the checker is work (R123 to R125). -/
theorem State.checkerWord_work (s : State) (seq : SeqNum) (w : Word) : Work s (s.checkerWord seq w) := by
  have seed : ∀ p : PatternSetting, (p.seedState w).lawful = true := by
    intro p
    unfold PatternSetting.seedState
    split <;> rfl
  unfold State.checkerWord
  split
  · exact s.setCheckerState_work _ (seed _)
  · rename_i e n hs
    split
    · split
      · exact (s.setCheckerState_work _ rfl).trans (.issue _ _)
      · rename_i hn
        refine Work.checker s _ fun c => ⟨c.1, c.2.1, c.2.2.1, ?_⟩
        have hl := c.2.2.2
        rw [hs] at hl
        simp only [CheckerState.lawful, decide_eq_true_eq] at hl ⊢
        simp only [Config.lockRun] at hn
        omega
    · exact s.setCheckerState_work _ (seed _)
  · rename_i e h hs
    exact s.checkerCompare_work seq w e h hs

theorem State.checkerParcel_work (s : State) (l : LaneId) (seq : SeqNum) (ws : List Sample) :
    Work s (s.checkerParcel l seq ws) := by
  unfold State.checkerParcel
  split
  · exact Work.foldl _ (fun s w => s.checkerWord_work seq w) _ _
  · exact .refl _

theorem State.takeCheck_work (s : State) (l : LaneId) (seq : SeqNum) (ws : List Sample) :
    Work s (s.takeCheck l seq ws) := by
  unfold State.takeCheck
  dsimp only
  refine ((s.continuity_work l seq).trans (.modLane _ l fun ln => ln.advance ws.length)).trans ?_
  generalize (s.continuity l seq).modLane l (fun ln => ln.advance ws.length) = s1
  refine (s1.countEntered_work l ws.length).trans ?_
  refine Work.trans ?_ (State.checkerParcel_work _ _ _ _)
  split
  · exact State.checkerLoss_work _ _ _ _
  · exact .refl _

/-! ### The answer to an offer -/

@[simp] theorem State.samples_checkerLoss (s : State) (l : LaneId) (seq : SeqNum) (d : Word) :
    (s.checkerLoss l seq d).delivery.samples = s.delivery.samples := by
  unfold State.checkerLoss State.checkerSearch State.setCheckerState
  repeat' split
  all_goals simp

@[simp] theorem State.samples_userLeft (s : State) (k : Option ProfileId) :
    (s.userLeft k).delivery.samples = s.delivery.samples := by
  unfold State.userLeft State.swapIfUnused State.swap
  repeat' split
  all_goals simp

@[simp] theorem State.samples_changeState (s : State) (l : LaneId) (st : LaneState) :
    (s.changeState l st).delivery.samples = s.delivery.samples := by
  unfold State.changeState
  dsimp only
  split <;> simp

@[simp] theorem State.samples_enterRunning (s : State) (l : LaneId) :
    (s.enterRunning l).delivery.samples = s.delivery.samples := by
  unfold State.enterRunning State.generatorReel
  dsimp only
  repeat' split
  all_goals simp

/-- A parcel taken by its lane is work, when an ECHO lane has a free place (R16, R17). -/
theorem State.takeParcel_work (s : State) (l : LaneId) (seq : SeqNum) (ws : List Sample) (r : Bool)
    (room : (s.lane l).config.route = .echo → s.sampleRoom = true) : Work s (s.takeParcel l seq ws r) := by
  unfold State.takeParcel
  split
  · exact s.enterRestore_work _ _ _ _
  · exact s.enterPlain_work _ _ _ _
  · exact s.enterPlain_work _ _ _ _
  · exact s.enterPlain_work _ _ _ _
  · rename_i h
    exact s.takeEcho_work _ _ _ _ (room h)
  · exact s.takeCheck_work _ _ _

/-- The answer of an ARMED or STALLED lane is work (R15). -/
theorem State.startWith_work (s : State) (l : LaneId) (seq : SeqNum) (ws : List Sample) (r : Bool) :
    Work s (s.startWith l seq ws r).2 := by
  unfold State.startWith
  dsimp only
  split
  · exact (Work.count _ _ _ _).trans (.issue _ _)
  · split
    · exact .refl _
    · rename_i h
      refine (s.enterRunning_work l).trans (State.takeParcel_work _ _ _ _ _ fun hr => ?_)
      rw [(s.enterRunning_work l).frame.config] at hr
      unfold State.sampleRoom
      rw [State.samples_enterRunning]
      exact (Bool.not_eq_false _).mp fun hf => h ⟨hr, hf⟩

/-- The answer of a RUNNING lane to a parcel that has passed its tests is work (R15 to R17, R86). -/
theorem State.takeOrWait_work (s : State) (l : LaneId) (seq : SeqNum) (ws : List Sample) :
    Work s (s.takeOrWait l seq ws).2 := by
  have line : ∀ (hr : (s.lane l).config.route ≠ .echo),
      Work s (let s1 := State.deadlines (s.lane l).det.runs.length l ws.length s
        if (s1.lane l).room ws.length then (Answer.take, s1.takeParcel l seq ws false) else (.wait, s1)).2 := by
    intro hr
    have w := State.deadlines_work (s.lane l).det.runs.length l ws.length s
    dsimp only
    split
    · refine w.trans (State.takeParcel_work _ _ _ _ _ fun he => ?_)
      rw [w.frame.config] at he
      exact absurd he hr
    · exact w
  unfold State.takeOrWait
  split
  · rename_i h
    exact s.takeParcel_work _ _ _ _ fun he => absurd (h.symm.trans he) (by decide)
  · split
    · rename_i h room
      exact s.takeParcel_work _ _ _ _ fun _ => room
    · exact .refl _
  all_goals
    rename_i h
    exact line (by rw [h]; decide)

/-- The answer of a RUNNING lane is work (R15, R18, R19). -/
theorem State.answerRunning_work (s : State) (l : LaneId) (seq : SeqNum) (ws : List Sample) :
    Work s (s.answerRunning l seq ws).2 := by
  unfold State.answerRunning
  dsimp only
  split
  · exact (Work.count _ _ _ _).trans (.issue _ _)
  · split
    · exact (Work.count _ _ _ _).trans (.issue _ _)
    · exact s.takeOrWait_work l seq ws

/-- The answer to a SAMPLES parcel is work (R15). -/
theorem State.answerSamples_work (s : State) (l : LaneId) (seq : SeqNum) (ws : List Sample) :
    Work s (s.answerSamples l seq ws).2 := by
  unfold State.answerSamples
  split
  · exact Work.count _ _ _ _
  · split
    · exact Work.count _ _ _ _
    · exact s.startWith_work _ _ _ _
  · exact s.answerRunning_work _ _ _
  · exact .refl _
  · exact s.startWith_work _ _ _ _
  · exact Work.count _ _ _ _
  · exact .refl _

/-! ### Marks -/

theorem State.placeMark_work (s : State) (l : LaneId) (m : MarkEntry) : Work s (s.placeMark l m) := by
  unfold State.placeMark
  dsimp only
  split
  · exact ((Work.modLane _ _ _).trans (Work.count _ _ _ _)).trans (State.spliceLate_work _ _ _)
  · exact (Work.modLane _ _ _).trans (Work.count _ _ _ _)

theorem State.offerMark_work (s : State) (l : LaneId) (m : MarkEntry) : Work s (s.offerMark l m).2 := by
  unfold State.offerMark
  split
  · exact s.placeMark_work l m
  · exact (Work.count _ _ _ _).trans (.issue _ _)

theorem State.forwardMark_work (s : State) (l : LaneId) (m : MarkEntry) (room : s.sampleRoom = true) :
    Work s (s.forwardMark l m) := (Work.push s _ room).trans (.count _ _ _ _)

theorem State.reelEvent_work (s : State) (l : LaneId) (k : MarkKind) : Work s (s.reelEvent l k) := by
  unfold State.reelEvent
  split
  · exact s.reelStartResync_work l
  · exact s.beginDrain_work l .armed
  all_goals exact .refl _

theorem State.markRunning_work (s : State) (l : LaneId) (m : MarkEntry) : Work s (s.markRunning l m).2 := by
  unfold State.markRunning
  split
  · exact (s.offerMark_work l m).trans (State.reelEvent_work _ _ _)
  · split
    · rename_i room
      exact (s.forwardMark_work l m room).trans (State.reelEvent_work _ _ _)
    · exact .refl _

theorem State.markArmed_work (s : State) (l : LaneId) (m : MarkEntry) : Work s (s.markArmed l m).2 := by
  unfold State.markArmed
  split
  · split
    · exact (s.enterRunning_work l).trans (State.markRunning_work _ _ _)
    · exact .refl _
  · exact Work.count _ _ _ _

theorem State.markStalled_work (s : State) (l : LaneId) (m : MarkEntry) : Work s (s.markStalled l m).2 := by
  unfold State.markStalled
  split
  · rename_i room
    have w := s.forwardMark_work l m room
    dsimp only
    split
    · exact w
    · exact (w.trans (State.changeState_work _ _ _)).trans (.issue _ _)
    · exact w.trans (State.spliceLate_work _ _ _)
    · exact w
    · exact w
  · exact .refl _

/-- The answer to a MARK parcel is work (R20). -/
theorem State.answerMark_work (s : State) (l : LaneId) (m : MarkEntry) : Work s (s.answerMark l m).2 := by
  unfold State.answerMark
  split
  · exact Work.count _ _ _ _
  · exact s.markArmed_work l m
  · exact s.markRunning_work l m
  · exact .refl _
  · exact s.markStalled_work l m
  · exact Work.count _ _ _ _
  · exact .refl _

/-- The lane's answer to an offered parcel is work (R14). -/
theorem State.answer_work (s : State) (p : InParcel) : Work s (s.answer p).2 := by
  unfold State.answer
  split
  · exact s.answerSamples_work _ _ _
  · exact s.answerMark_work _ _

/-! ### The wait list, the timers and the repair unit -/

/-- A free place served to a waiting lane is work (R104). -/
theorem State.placeNextPart_work (s : State) (l : LaneId) (room : s.sampleRoom = true) :
    Work s (s.placeNextPart l) := by
  unfold State.placeNextPart
  split
  · split
    · exact (s.placeTrailing_work l room).trans (State.settle_work _ _)
    · exact s.settle_work l
  · exact (s.placePart_work l room).trans (State.settle_work _ _)

theorem State.serveWait_work (s : State) (l : LaneId) (room : s.sampleRoom = true) : Work s (s.serveWait l) := by
  unfold State.serveWait
  dsimp only
  split
  · exact s.placeNextPart_work l room
  · exact ((s.placeNextPart_work l room).trans (.leaveWait _ _)).trans (State.depart_work _ _)

/-- A stall becoming pending is work (R26). -/
theorem State.expireLane_work (s : State) (l : LaneId) : Work s (s.expireLane l) :=
  (s.changeState_work l _).trans (State.flush_work _ _)

theorem State.takeRepair_work (s : State) : Work s s.takeRepair := by
  unfold State.takeRepair
  split
  · exact (Work.repair s _).trans (.modDet _ _ _)
  · exact .refl _
  · exact .refl _

theorem Lane.config_repairRun (ln : Lane) (n : Nat) : (ln.repairRun n).config = ln.config := by
  unfold Lane.repairRun
  split <;> rfl

/-- A repair completion is work (R84). -/
theorem State.completeRepair_work (s : State) : Work s s.completeRepair := by
  unfold State.completeRepair
  split
  · exact .refl _
  · rename_i e _
    dsimp only
    refine Work.trans (.modLane s e.lane (fun ln => ln.repairRun e.run) fun ln => ln.config_repairRun _) ?_
    exact ((Work.repair _ _).trans (.wake _ _)).trans (State.depart_work _ _)

end Sys2Proof.Machine
end

