-- ==== Sys2Proof/Laws/Events.lean ====
section
/-! SUPPORT. The shapes of claims about events, said once: what a due event answers, how the intake port moves on when
its head goes, what the tests on a received parcel read, and what the work of lanes leaves. -/

namespace Sys2Proof.Machine

/-- While RESET is deasserted a meaning is its effect. -/
theorem whileRunning_of_deasserted {s : State} (h : s.resetLine = false) (f : State → State) :
    whileRunning f s = .next (f s) := by
  unfold whileRunning
  rw [h]
  rfl

/-! ### Pacing -/

/-- A PACE parcel starts or not: one record either way (R142). -/
theorem IntakePort.startPace_eq (p : IntakePort) :
    p.startPace =
      { p with
        sending :=
          if p.sending = none ∧ p.form ≠ .byLine ∧ p.link = .up ∧ p.lastSent ≠ some p.pace then some p.pace
          else p.sending } := by
  have hc : ((p.form.hasParcel && decide (p.link = .up) && p.sending.isNone && decide (p.lastSent ≠ some p.pace)) = true)
      = (p.sending = none ∧ p.form ≠ .byLine ∧ p.link = .up ∧ p.lastSent ≠ some p.pace) := by
    cases p.form <;> cases p.sending <;> simp [PaceForm.hasParcel]
  unfold IntakePort.startPace
  simp only [hc]
  split <;> rfl

/-- The pace state set again, as one table (R141). -/
theorem IntakePort.setPace_eq (p : IntakePort) :
    p.setPace =
      { p with
        pace :=
          if p.port = .halted ∨ p.haltLevel ≤ p.queue.length then .stop
          else if p.queue.length ≤ p.resumeLevel then .go
          else p.pace } := by
  unfold IntakePort.setPace
  by_cases h : p.port = .halted <;> simp [h]

/-- Setting the pace again and giving it to the reader is what claims call `paced` (R141, R142). -/
theorem IntakePort.repace_eq (p : IntakePort) : p.repace = p.paced := by
  unfold IntakePort.repace
  rw [IntakePort.startPace_eq, IntakePort.setPace_eq]
  rfl

/-- Overrun noticed stays only while the queue is at the halt level or above (R138). -/
theorem IntakePort.clearOverrun_eq (p : IntakePort) :
    p.clearOverrun = { p with overrunNoticed := p.overrunNoticed && decide (p.haltLevel ≤ p.queue.length) } := by
  unfold IntakePort.clearOverrun
  split
  · have : ¬p.haltLevel ≤ p.queue.length := by omega
    simp [this]
  · have : p.haltLevel ≤ p.queue.length := by omega
    simp [this]

/-- The head's leaving is what claims call `headGone` (R138, R139, R141). -/
theorem IntakePort.dequeue_eq (p : IntakePort) {x : InParcel} {rest : List InParcel} (h : p.queue = x :: rest)
    (c : IntakeCounter) : p.dequeue c = p.headGone rest c := by
  unfold IntakePort.dequeue IntakePort.headGone
  rw [IntakePort.repace_eq, IntakePort.clearOverrun_eq]
  simp [IntakePort.bump, h]

/-- The delivery pace as R153 says it. -/
theorem deliveryPaceOf_eq (f : PaceForm) (x : Pace) (ready : Bool) :
    deliveryPaceOf f x ready =
      if (f ≠ .byLine ∧ x = .stop) ∨ (f ≠ .byParcel ∧ ready = false) then .stop else .go := by
  unfold deliveryPaceOf
  cases f <;> cases x <;> cases ready <;> rfl

/-! ### The offer -/

/-- An offer that is due acts on the lane's answer (R139). -/
theorem exec_offer {s : State} {x : InParcel} {rest : List InParcel} (h : OfferReady s x rest) :
    exec .offer s = .next ((s.answer x).2.actOn (s.answer x).1) := by
  obtain ⟨h1, h2, h3⟩ := h
  change execOffer s = _
  unfold execOffer
  rw [whileRunning_of_deasserted h1]
  congr 1
  unfold State.offerHead
  rw [h2]
  dsimp only
  rw [h3]
  rfl

/-- A lane's change and the head's leaving, as one record. -/
theorem State.dequeue_modLane (s : State) {x : InParcel} {rest : List InParcel} (h : s.intake.queue = x :: rest)
    (l : LaneId) (f : Lane → Lane) (c : IntakeCounter) :
    ({ s.modLane l f with intake := (s.modLane l f).intake.dequeue c } : State)
      = s.headActedOn l (f (s.lane l)) rest c := by
  change ({ s.modLane l f with intake := s.intake.dequeue c } : State) = _
  rw [IntakePort.dequeue_eq _ h]
  rfl

/-- A parcel fails the order test exactly when it is not in order (R19). -/
theorem Lane.behind_iff (ln : Lane) (n : SeqNum) : ln.behind n = true ↔ ¬ln.inOrder n := by
  unfold Lane.behind Lane.inOrder isBehind forwardDistance
  cases ln.expected with
  | none => simp
  | some e =>
    simp only [Config.behindDistance, Option.some.injEq, forall_eq', Nat.not_lt]
    exact decide_eq_true_iff

/-- A parcel that is in order has its gap before it missing (R19). -/
theorem Lane.missing_eq {ln : Lane} {n : SeqNum} (h : ln.inOrder n) : ln.missing n = ln.gapBefore n := by
  unfold Lane.missing Lane.gapBefore
  cases he : ln.expected with
  | none => rfl
  | some e =>
    have hb : isBehind e n = false := decide_eq_false (Nat.not_le.2 (h e he))
    dsimp only
    rw [hb]
    rfl

/-! ### Received words -/

/-- One more received word goes into the check register after the others. -/
theorem checkRegister_append (rx : List RxWord) (x : RxWord) :
    checkRegister (rx ++ [x]) = intoCheck (checkRegister rx) x := by
  simp [checkRegister]

theorem crc_append (ws : List Word) (w : Word) : crc (ws ++ [w]) = crcWord (crc ws) w := by
  simp [crc]

theorem length_receivedAs (ws : List Word) : (receivedAs ws).length = ws.length := by
  simp only [receivedAs, List.length_append, List.length_map, List.length_take, List.length_range]
  omega

/-- A parcel of at most 517 words is kept whole. -/
theorem receivedAs_short {ws : List Word} (h : ws.length ≤ 517) : receivedAs ws = ws.map .word := by
  unfold receivedAs
  rw [List.take_of_length_le h, Nat.sub_eq_zero_of_le h]
  simp

/-- The receiver keeps the first 517 words (R174). -/
theorem keptWords_receivedAs (ws : List Word) : keptWords (receivedAs ws) = ws.take 517 := by
  have h1 : ∀ (xs : List Word) (rx : List RxWord), keptWords (xs.map .word ++ rx) = xs ++ keptWords rx := by
    intro xs rx
    induction xs with
    | nil => rfl
    | cons a t ih => simp [keptWords, ih]
  have h2 : ∀ (xs : List Nat) (f : Nat → Word), keptWords (xs.map fun i => .unkept (f i)) = [] := by
    intro xs f
    induction xs with
    | nil => rfl
    | cons a t ih => simp [keptWords, ih]
  unfold receivedAs
  rw [h1, h2, List.append_nil]

/-- The check register after a parcel without a symbol error is the CRC of all its words (R175). -/
theorem checkRegister_receivedAs (ws : List Word) : checkRegister (receivedAs ws) = some (crc ws) := by
  have h1 : ∀ (xs : List Word) (r : Word), (xs.map RxWord.word).foldl intoCheck (some r) = some (xs.foldl crcWord r) := by
    intro xs
    induction xs with
    | nil => intro _; rfl
    | cons a t ih => intro r; exact ih _
  have h2 : ∀ (n : Nat) (f : Nat → Word) (r : Word),
      ((List.range n).map fun i => RxWord.unkept (f i)).foldl intoCheck (some r)
        = some (if n = 0 then r else f (n - 1)) := by
    intro n f r
    cases n with
    | zero => rfl
    | succ n =>
      rw [List.range_succ, List.map_append, List.foldl_append]
      have : ∀ (xs : List Nat) (q : Word), ∃ q', (xs.map fun i => RxWord.unkept (f i)).foldl intoCheck (some q) = some q' := by
        intro xs
        induction xs with
        | nil => intro q; exact ⟨q, rfl⟩
        | cons a t ih => intro q; exact ih _
      obtain ⟨q', hq⟩ := this (List.range n) r
      rw [hq]
      simp [intoCheck]
  unfold checkRegister receivedAs
  rw [List.foldl_append, h1, h2]
  by_cases h : ws.length ≤ 517
  · rw [if_pos (by omega), List.take_of_length_le h]; rfl
  · rw [if_neg (by omega), List.take_of_length_le (by omega)]

theorem getD_kept (ws : List Word) {i : Nat} (h : i < 517) : (ws.take 517).getD i 0 = ws.getD i 0 := by
  rw [List.getD_eq_getElem?_getD, List.getD_eq_getElem?_getD, List.getElem?_take_of_lt h]

/-- The header fields stand in the words that are kept (R176). -/
theorem header_kept (ws : List Word) :
    hdrKind (ws.take 517) = hdrKind ws ∧ hdrLane (ws.take 517) = hdrLane ws ∧ hdrSeq (ws.take 517) = hdrSeq ws
      ∧ hdrTag (ws.take 517) = hdrTag ws ∧ hdrCount (ws.take 517) = hdrCount ws := by
  refine ⟨?_, ?_, ?_, ?_, ?_⟩
  · rw [hdrKind, getD_kept ws (by omega)]; rfl
  · rw [hdrLane, getD_kept ws (by omega)]; rfl
  · rw [hdrSeq, getD_kept ws (by omega), getD_kept ws (by omega)]; rfl
  · rw [hdrTag, getD_kept ws (by omega)]; rfl
  · rw [hdrCount, getD_kept ws (by omega)]; rfl

/-- The receiver hands on what `receivedAs` says, one word after another (R174). -/
theorem receiveWord_receivedAs (ws : List Word) (w : Word) :
    receiveWord (receivedAs ws) w = receivedAs (ws ++ [w]) := by
  unfold receiveWord
  rw [length_receivedAs, checkRegister_receivedAs, Option.getD_some, ← crc_append, Config.keptWords]
  by_cases h : ws.length < 517
  · rw [if_pos h, receivedAs_short (by omega), receivedAs_short (by rw [List.length_append, List.length_singleton]; omega)]
    simp
  · rw [if_neg h]
    unfold receivedAs
    have hs : (ws ++ [w]).length - 517 = (ws.length - 517) + 1 := by
      rw [List.length_append, List.length_singleton]; omega
    rw [hs, List.range_succ, List.map_append, List.take_append_of_le_length (by omega), List.append_assoc]
    refine congrArg (List.map RxWord.word (ws.take 517) ++ ·) (congrArg₂ (· ++ ·) ?_ ?_)
    · refine List.map_congr_left fun i hi => ?_
      have := List.mem_range.1 hi
      rw [List.take_append_of_le_length (by omega)]
    · rw [List.map_singleton, List.take_of_length_le (by rw [List.length_append, List.length_singleton]; omega)]

/-- A symbol error in a parcel fails its check word (R174). -/
theorem checkRegister_symbolError {rx : List RxWord} (h : RxWord.symbolError ∈ rx) : checkRegister rx = none := by
  have hn : ∀ xs : List RxWord, xs.foldl intoCheck none = none := by
    intro xs
    induction xs with
    | nil => rfl
    | cons a t ih => cases a <;> exact ih
  have : ∀ (xs : List RxWord) (r : Option Word), RxWord.symbolError ∈ xs → xs.foldl intoCheck r = none := by
    intro xs
    induction xs with
    | nil => intro _ h; cases h
    | cons a t ih =>
      intro r h
      cases a with
      | symbolError => exact hn t
      | word w => exact ih _ (by simpa using h)
      | unkept w => exact ih _ (by simpa using h)
  exact this rx _ h

end Sys2Proof.Machine
end

