-- ==== Sys2Proof/Laws/Entry.lean ====
section
/-! SUPPORT. The steps of an entry as the claims name them: a lane's entry replaced, and each step that the meanings make
read as the step of `Safety` that says it. -/

namespace Sys2Proof.Machine

/-! ### A lane's entry replaced -/

@[simp] theorem State.lane_withLane_same (s : State) (l : LaneId) (ln : Lane) : (s.withLane l ln).lane l = ln := by
  simp [State.lane, State.withLane]

theorem State.lane_withLane_ne (s : State) {l m : LaneId} (ln : Lane) (h : m ≠ l) :
    (s.withLane l ln).lane m = s.lane m :=
  s.lane_modLane_ne (fun _ => ln) h

@[simp] theorem State.withLane_withLane (s : State) (l : LaneId) (a b : Lane) :
    (s.withLane l a).withLane l b = s.withLane l b := by
  simp [State.withLane]

@[simp] theorem State.withLane_self (s : State) (l : LaneId) : s.withLane l (s.lane l) = s := by
  simp [State.withLane, State.lane]

@[simp] theorem State.delivery_withLane (s : State) (l : LaneId) (ln : Lane) : (s.withLane l ln).delivery = s.delivery := rfl
@[simp] theorem State.intake_withLane (s : State) (l : LaneId) (ln : Lane) : (s.withLane l ln).intake = s.intake := rfl
@[simp] theorem State.profiles_withLane (s : State) (l : LaneId) (ln : Lane) : (s.withLane l ln).profiles = s.profiles := rfl
@[simp] theorem State.repair_withLane (s : State) (l : LaneId) (ln : Lane) : (s.withLane l ln).repair = s.repair := rfl
@[simp] theorem State.waitList_withLane (s : State) (l : LaneId) (ln : Lane) : (s.withLane l ln).waitList = s.waitList := rfl

theorem State.issue_withLane (s : State) (l : LaneId) (ln : Lane) (n : Notice) :
    (s.withLane l ln).issue n = (s.issue n).withLane l ln := rfl

theorem State.modLane_eq_withLane (s : State) (l : LaneId) (f : Lane → Lane) :
    s.modLane l f = s.withLane l (f (s.lane l)) := rfl

theorem State.modDet_eq_withLane (s : State) (l : LaneId) (f : Detector → Detector) :
    s.modDet l f = s.withLane l { s.lane l with det := f (s.lane l).det } := rfl

theorem State.count_eq_withLane (s : State) (l : LaneId) (c : LaneCounter) (n : Nat) :
    s.count l c n = s.withLane l ((s.lane l).counted c n) := rfl

/-! ### The steps of an entry -/

theorem LaneConfig.levelHit_eq (c : LaneConfig) (ws : List Sample) : c.levelHit ws = c.watchHits ws := by
  have peak : peakOf ws = rawPeak ws := rfl
  unfold LaneConfig.levelHit LaneConfig.watchHits watchHit
  rw [peak]
  by_cases h : c.watchLimitA ≤ c.watchLimitB <;> simp [h]

/-- The level watch, as the claims say it (R63). -/
theorem State.watch_eq (s : State) (l : LaneId) (n : SeqNum) (ws : List Sample) :
    s.watch l n ws = s.levelNoticed l n ws := by
  simp only [State.watch, State.levelNoticed, LaneConfig.levelHit_eq]
  rfl

theorem Lane.spliceOffsets_eq (ln : Lane) (n : SeqNum) (count : Nat) :
    ln.spliceOffsets n count = ln.spliceSamples n count := by
  simp [Lane.spliceOffsets, Lane.spliceSamples, MarkEntry.pendingSplice, Bool.and_assoc]

theorem EntryPlan.spansAt_eq (e : EntryPlan) (i : Nat) :
    e.spansAt i = e.config.spansAt e.conceal e.gap e.spliceOffsets e.count i := rfl

theorem Lane.missing_resolveSplices (ln : Lane) (m n : SeqNum) : (ln.resolveSplices m).missing n = ln.missing n := rfl

/-- The continuity step of an entry whose parcel's SPLICE marks are resolved, as the claims say it (R19, R60). -/
theorem State.continuity_eq {s : State} {l : LaneId} {n : SeqNum} (h : (s.lane l).inOrder n) :
    (s.modLane l fun ln => ln.resolveSplices n).continuity l n = s.gapFollowed l n ((s.lane l).gapBefore n) := by
  have resolved (m : MarkEntry) :
      (if m.pendingSplice && decide (m.seq = n) then { m with spanPending := false } else m)
        = if m.kind = .splice ∧ m.seq = n then { m with spanPending := false } else m := by
    cases m with
    | mk k q o v p => cases p <;> simp [MarkEntry.pendingSplice]
  unfold State.continuity State.gapFollowed
  rw [s.lane_modLane_same, Lane.missing_resolveSplices, Lane.missing_eq h]
  by_cases d : (s.lane l).gapBefore n = 0
  · simp only [d, if_true, State.modLane_eq_withLane, State.lane_withLane_same, State.withLane_withLane,
      Lane.resolveSplices, resolved]
  · simp only [d, if_false, State.gapFound, State.count_eq_withLane, State.modLane_eq_withLane,
      State.lane_withLane_same, State.withLane_withLane, State.issue_withLane, Lane.resolveSplices, resolved]
    rfl

/-- The late marks of an entry, as the claims say them, once the expectation is n + 1 (R61). -/
theorem State.lateMarks_eq {s : State} {l : LaneId} {n : SeqNum} (h : (s.lane l).expected = some (n + 1)) :
    s.lateMarks l = s.lateMarksFound l n := by
  have late (m : MarkEntry) : (m.pendingSplice && isBehind (n + 1) m.seq) =
      decide (m.kind = .splice ∧ m.spanPending = true ∧ 8388608 ≤ (m.seq - (n + 1)).toNat) := by
    simp [MarkEntry.pendingSplice, isBehind, forwardDistance, Config.behindDistance, Bool.and_assoc]
  unfold State.lateMarks State.lateMarksFound
  rw [h]
  simp only [late]
  rfl

/-- One sample's entry, as the claims say it (R16). -/
theorem State.enterSample_eq (s : State) (l : LaneId) (e : EntryPlan) (i : Nat) (v : Sample) :
    s.enterSample l e i v
      = s.sampleEntered l e.config e.seq e.spliceOffsets e.spansAt e.count e.resumed v i := by
  unfold State.enterSample State.sampleEntered
  simp only [List.contains_iff_mem]
  rfl

/-- The samples of a parcel enter one after another, each at its offset (R16). -/
theorem State.enterSamples_eq : ∀ (vs : List Sample) (i : Nat) (l : LaneId) (e : EntryPlan) (s : State),
    State.enterSamples vs i l e s =
      (vs.zipIdx i).foldl
        (fun t (x : Sample × Nat) =>
          t.sampleEntered l e.config e.seq e.spliceOffsets e.spansAt e.count e.resumed x.1 x.2) s
  | [], _, _, _, _ => rfl
  | v :: vs, i, l, e, s => by
    simp only [State.enterSamples, List.zipIdx_cons, List.foldl_cons, State.enterSample_eq,
      State.enterSamples_eq vs (i + 1) l e]

/-! ### Trailing marks -/

/-- The first trailing mark leaves, as the claims say it (R61, R105). -/
theorem State.placeTrailing_eq {s : State} {l : LaneId} {m : MarkEntry} {ms : List MarkEntry}
    (h : (s.lane l).marks = m :: ms) : s.placeTrailing l = s.trailingPlaced l m ms := by
  unfold State.placeTrailing State.trailingPlaced
  rw [h]
  simp only [MarkEntry.pendingSplice, Bool.and_eq_true, decide_eq_true_eq]
  rfl

end Sys2Proof.Machine
end

