-- ==== Sys2Proof/Laws/HumBank.lean ====
section
/-! SUPPORT. The banks of the hum profiles: what a write leaves to be read, and that every write keeps the one form of a
bank. -/

namespace Sys2Proof.Machine

/-- The one form from a higher index on is the one form from a lower index on. -/
theorem entriesFrom_mono : ∀ {es : List (Nat × Sample)} {m n : Nat}, m ≤ n → entriesFrom n es = true →
    entriesFrom m es = true
  | [], _, _, _, _ => rfl
  | (j, v) :: rest, m, n, h, he => by
    simp only [entriesFrom, Bool.and_eq_true, decide_eq_true_eq] at he ⊢
    exact ⟨⟨⟨Nat.le_trans h he.1.1.1, he.1.1.2⟩, he.1.2⟩, he.2⟩

/-- Below the first listed index every entry reads as 0. -/
theorem readEntry_below : ∀ {es : List (Nat × Sample)} {n i : Nat}, entriesFrom n es = true → i < n →
    readEntry es i = 0
  | [], _, _, _, _ => rfl
  | (j, v) :: rest, n, i, he, hi => by
    simp only [entriesFrom, Bool.and_eq_true, decide_eq_true_eq] at he
    have hj : ¬j = i := by omega
    simp only [readEntry, if_neg hj]
    exact readEntry_below he.2 (by omega)

/-- What is read after one entry has been written (R32). -/
theorem readEntry_writeEntry : ∀ {es : List (Nat × Sample)} {n : Nat} (i j : Nat) (v : Sample),
    entriesFrom n es = true → readEntry (writeEntry es i v) j = if j = i then v else readEntry es j
  | [], _, i, j, v, _ => by
    unfold writeEntry
    by_cases hv : v = 0
    · rw [if_pos hv, hv]; exact (ite_self _).symm
    · rw [if_neg hv, readEntry, readEntry]
      by_cases h : j = i
      · rw [if_pos h, if_pos h.symm]
      · rw [if_neg h, if_neg (Ne.symm h), readEntry]
  | (k, w) :: rest, n, i, j, v, he => by
    have he' := he
    simp only [entriesFrom, Bool.and_eq_true, decide_eq_true_eq] at he
    obtain ⟨⟨⟨hk, hw⟩, hb⟩, hr⟩ := he
    unfold writeEntry
    split
    · rename_i hlt
      have z : readEntry ((k, w) :: rest) i = 0 := by
        rw [readEntry, if_neg (show ¬k = i by omega)]
        exact readEntry_below hr (by omega)
      by_cases hv : v = 0
      · rw [if_pos hv]
        by_cases hj : j = i
        · rw [if_pos hj, hj, z, hv]
        · rw [if_neg hj]
      · rw [if_neg hv, readEntry]
        by_cases hj : j = i
        · rw [if_pos hj, if_pos hj.symm]
        · rw [if_neg hj, if_neg (Ne.symm hj)]
    · split
      · rename_i _ hik
        subst hik
        by_cases hv : v = 0
        · rw [if_pos hv]
          by_cases hj : j = i
          · rw [if_pos hj, hj, hv]; exact readEntry_below hr (by omega)
          · rw [if_neg hj, readEntry, if_neg (Ne.symm hj)]
        · rw [if_neg hv, readEntry]
          by_cases hj : j = i
          · rw [if_pos hj, if_pos hj.symm]
          · rw [if_neg hj, if_neg (Ne.symm hj), readEntry, if_neg (Ne.symm hj)]
      · rename_i h1 h2
        simp only [readEntry]
        by_cases hkj : k = j
        · subst hkj
          rw [if_pos rfl, if_neg (Ne.symm h2), if_pos rfl]
        · simp only [if_neg hkj]
          exact readEntry_writeEntry i j v hr

/-- One write keeps the one form (R30). -/
theorem entriesFrom_writeEntry : ∀ {es : List (Nat × Sample)} {n : Nat} (i : Nat) (v : Sample),
    entriesFrom n es = true → n ≤ i → i < Config.bankEntries → entriesFrom n (writeEntry es i v) = true
  | [], n, i, v, _, hn, hi => by
    unfold writeEntry
    by_cases hv : v = 0
    · rw [if_pos hv]; rfl
    · rw [if_neg hv]
      simp only [entriesFrom, Bool.and_eq_true, decide_eq_true_eq]
      exact ⟨⟨⟨hn, hv⟩, hi⟩, trivial⟩
  | (k, w) :: rest, n, i, v, he, hn, hi => by
    have he' := he
    simp only [entriesFrom, Bool.and_eq_true, decide_eq_true_eq] at he
    obtain ⟨⟨⟨hk, hw⟩, hb⟩, hr⟩ := he
    unfold writeEntry
    split
    · by_cases hv : v = 0
      · rw [if_pos hv]; exact he'
      · rw [if_neg hv]
        simp only [entriesFrom, Bool.and_eq_true, decide_eq_true_eq]
        exact ⟨⟨⟨hn, hv⟩, hi⟩, ⟨⟨by omega, hw⟩, hb⟩, hr⟩
    · split
      · rename_i hik
        subst hik
        by_cases hv : v = 0
        · rw [if_pos hv]; exact entriesFrom_mono (by omega) hr
        · rw [if_neg hv]
          simp only [entriesFrom, Bool.and_eq_true, decide_eq_true_eq]
          exact ⟨⟨⟨hn, hv⟩, hi⟩, hr⟩
      · simp only [entriesFrom, Bool.and_eq_true, decide_eq_true_eq]
        exact ⟨⟨⟨hk, hw⟩, hb⟩, entriesFrom_writeEntry i v hr (by omega) hi⟩

/-- A run of writes keeps the one form (R30, R32). -/
theorem entriesFrom_writeEntries : ∀ {es : List (Nat × Sample)} (i : Nat) (vs : List Sample),
    entriesFrom 0 es = true → i + vs.length ≤ Config.bankEntries → entriesFrom 0 (writeEntries es i vs) = true
  | _, _, [], he, _ => he
  | _, i, v :: vs, he, hi => by
    simp only [List.length_cons] at hi
    exact entriesFrom_writeEntries (i + 1) vs (entriesFrom_writeEntry i v he (Nat.zero_le _) (by omega)) (by omega)

/-- What is read after a run of entries has been written (R32). -/
theorem readEntry_writeEntries : ∀ {es : List (Nat × Sample)} (i : Nat) (vs : List Sample) (j : Nat),
    entriesFrom 0 es = true → i + vs.length ≤ Config.bankEntries →
      readEntry (writeEntries es i vs) j = if i ≤ j ∧ j < i + vs.length then vs.getD (j - i) 0 else readEntry es j
  | _, i, [], j, _, _ => by
    have : ¬(i ≤ j ∧ j < i + ([] : List Sample).length) := by simp only [List.length_nil]; omega
    rw [if_neg this]; rfl
  | es, i, v :: vs, j, he, hi => by
    simp only [List.length_cons] at hi
    have hw := entriesFrom_writeEntry i v he (Nat.zero_le _) (by omega)
    rw [writeEntries, readEntry_writeEntries (i + 1) vs j hw (by omega), readEntry_writeEntry i j v he]
    simp only [List.length_cons]
    by_cases h1 : j = i
    · subst h1
      rw [if_neg (by omega), if_pos rfl, if_pos ⟨by omega, by omega⟩, Nat.sub_self]
      rfl
    · by_cases h2 : i + 1 ≤ j ∧ j < i + 1 + vs.length
      · obtain ⟨k, rfl⟩ : ∃ k, j = i + 1 + k := ⟨j - (i + 1), by omega⟩
        have e1 : i + 1 + k - (i + 1) = k := by omega
        have e2 : i + 1 + k - i = k + 1 := by omega
        rw [if_pos h2, if_pos ⟨by omega, by omega⟩, e1, e2]
        rfl
      · rw [if_neg h2, if_neg h1, if_neg (by omega)]

/-- A write within a bank keeps it well formed (R30). -/
theorem HumBank.wf_write {b : HumBank} (i : Nat) (vs : List Sample) (h : b.wf = true)
    (hi : i + vs.length ≤ Config.bankEntries) : (b.write i vs).wf = true := by
  simp only [HumBank.wf, Bool.and_eq_true, decide_eq_true_eq] at h ⊢
  exact ⟨⟨entriesFrom_writeEntries i vs h.1.1 hi, h.1.2⟩, h.2⟩

/-- An entry of a bank after a write (R32). -/
theorem HumBank.entry_write {b : HumBank} (i : Nat) (vs : List Sample) (j : Nat) (h : b.wf = true)
    (hi : i + vs.length ≤ Config.bankEntries) :
    (b.write i vs).entry j = if i ≤ j ∧ j < i + vs.length then vs.getD (j - i) 0 else b.entry j := by
  simp only [HumBank.wf, Bool.and_eq_true, decide_eq_true_eq] at h
  exact readEntry_writeEntries i vs j h.1.1 hi

end Sys2Proof.Machine
end

