-- ==== Sys2Proof/Laws/LaneWork.lean ====
section
/-! SUPPORT. What the departure and the detector of one lane can do to the part. `LaneWork l s t` says that t comes from s
by primitive updates of lane l's own entry and of its share in the shared units, with no change of a lane's state; every
shared operation of departure, assembly and detection is such work, and `LaneWork.frame` says once what it leaves. -/

namespace Sys2Proof.Machine

/-- The lane's own work: its entry changes but for its record, state and phase profile; its own entries come and go in
the repair unit and the wait list; a generator attached to it steps; and notices and parcels are sent. -/
inductive LaneWork (l : LaneId) : State → State → Prop where
  | refl (s : State) : LaneWork l s s
  | trans {s t u : State} : LaneWork l s t → LaneWork l t u → LaneWork l s u
  | modLane (s : State) (f : Lane → Lane) :
      (∀ ln : Lane, (f ln).config = ln.config ∧ (f ln).state = ln.state ∧ (f ln).hum.profile = ln.hum.profile) →
      LaneWork l s (s.modLane l f)
  | repair (s : State) (r : RepairUnit) :
      (r.queue.filter fun e => decide (e.lane ≠ l)) = s.repair.queue.filter (fun e => decide (e.lane ≠ l)) →
      (∀ e : RepairEntry, e.lane ≠ l → (r.inProgress = some e ↔ s.repair.inProgress = some e)) →
      LaneWork l s { s with repair := r }
  | waitList (s : State) (w : List LaneId) :
      (w.filter fun m => decide (m ≠ l)) = s.waitList.filter (fun m => decide (m ≠ l)) →
      LaneWork l s { s with waitList := w }
  | fullNoticed (s : State) (b : Bool) : LaneWork l s { s with fullNoticed := b }
  | generator (s : State) (n : Word) (single : Bool) (countdown : Nat) : s.generator.lane = some l →
      LaneWork l s
        { s with generator := { s.generator with next := n, single := single, countdown := countdown } }
  | issue (s : State) (n : Notice) : LaneWork l s (s.issue n)
  | push (s : State) (p : OutParcel) : s.sampleRoom = true → LaneWork l s (s.pushSample p)
  | headWaiting (s : State) (b : Bool) : LaneWork l s { s with intake := { s.intake with headWaiting := b } }

/-! ### What the work leaves -/

/-- The lane's own work is work. -/
theorem LaneWork.work {l : LaneId} {s t : State} (h : LaneWork l s t) : Work s t := by
  induction h with
  | refl s => exact .refl s
  | trans _ _ h k => exact h.trans k
  | modLane s f hf => exact .modLane s l f fun ln => (hf ln).1
  | repair s r => exact .repair s r
  | waitList s w => exact .waitList s w
  | fullNoticed s b => exact .fullNoticed s b
  | generator s _ _ _ _ => exact .generator s _
  | issue s n => exact .issue s n
  | push s p room => exact .push s p room
  | headWaiting s b => exact .headWaiting s b

/-- What a notice does to the delivery counters: only notices discarded may rise. -/
theorem DeliveryPort.counter_issue (d : DeliveryPort) (n : Notice) (c : DeliveryCounter) (h : c ≠ .noticesDiscarded) :
    (d.issue n).counter c = d.counter c := by
  unfold DeliveryPort.issue DeliveryPort.join DeliveryPort.commitDue DeliveryPort.commit DeliveryPort.bump
  repeat' split
  all_goals first | rfl | skip
  cases c <;> first | exact absurd rfl h | simp [DeliveryPort.counter, bumpAt, DeliveryCounter.place]

/-- What the lane's own work leaves as it was, beside what all work leaves (`Work.Frame`). -/
structure LaneWork.Frame (l : LaneId) (s t : State) : Prop where
  others : ∀ m : LaneId, m ≠ l → t.lane m = s.lane m
  state : (t.lane l).state = (s.lane l).state
  phaseProfile : (t.lane l).hum.profile = (s.lane l).hum.profile
  profiles : t.profiles = s.profiles
  checker : t.checker = s.checker
  generator : t.generator =
    { s.generator with next := t.generator.next, single := t.generator.single, countdown := t.generator.countdown }
  otherGenerator : s.generator.lane ≠ some l → t.generator = s.generator
  repairQueue :
    (t.repair.queue.filter fun e => decide (e.lane ≠ l)) = s.repair.queue.filter (fun e => decide (e.lane ≠ l))
  inProgress : ∀ e : RepairEntry, e.lane ≠ l → (t.repair.inProgress = some e ↔ s.repair.inProgress = some e)
  waitList : (t.waitList.filter fun m => decide (m ≠ l)) = s.waitList.filter (fun m => decide (m ≠ l))
  counters : ∀ c : DeliveryCounter, c ≠ .noticesDiscarded → t.delivery.counter c = s.delivery.counter c

theorem LaneWork.Frame.refl (l : LaneId) (s : State) : LaneWork.Frame l s s :=
  ⟨fun _ _ => rfl, rfl, rfl, rfl, rfl, rfl, fun _ => rfl, rfl, fun _ _ => .rfl, rfl, fun _ _ => rfl⟩

theorem LaneWork.Frame.trans {l : LaneId} {s t u : State} (h : LaneWork.Frame l s t) (k : LaneWork.Frame l t u) :
    LaneWork.Frame l s u where
  others m hm := (k.others m hm).trans (h.others m hm)
  state := k.state.trans h.state
  phaseProfile := k.phaseProfile.trans h.phaseProfile
  profiles := k.profiles.trans h.profiles
  checker := k.checker.trans h.checker
  generator := by rw [k.generator, h.generator]
  otherGenerator hs := by
    have ht := h.otherGenerator hs
    rw [k.otherGenerator (by rw [ht]; exact hs), ht]
  repairQueue := k.repairQueue.trans h.repairQueue
  inProgress e he := (k.inProgress e he).trans (h.inProgress e he)
  waitList := k.waitList.trans h.waitList
  counters c hc := (k.counters c hc).trans (h.counters c hc)

theorem LaneWork.frame {l : LaneId} {s t : State} (h : LaneWork l s t) : LaneWork.Frame l s t := by
  induction h with
  | refl s => exact .refl l s
  | trans _ _ h k => exact h.trans k
  | modLane s f hf =>
    refine { LaneWork.Frame.refl l s with others := ?_, state := ?_, phaseProfile := ?_ }
    · exact fun m hm => s.lane_modLane_ne f hm
    · rw [State.lane_modLane_same]; exact (hf _).2.1
    · rw [State.lane_modLane_same]; exact (hf _).2.2
  | repair s r hq hp => exact { LaneWork.Frame.refl l s with repairQueue := hq, inProgress := hp }
  | waitList s w hw => exact { LaneWork.Frame.refl l s with waitList := hw }
  | fullNoticed s b => exact { LaneWork.Frame.refl l s with }
  | generator s _ _ _ hl => exact { LaneWork.Frame.refl l s with generator := rfl, otherGenerator := (absurd hl ·) }
  | issue s n =>
    exact { LaneWork.Frame.refl l s with counters := fun c hc => s.delivery.counter_issue n c hc }
  | push s p _ => exact { LaneWork.Frame.refl l s with }
  | headWaiting s b => exact { LaneWork.Frame.refl l s with }

/-- A lane whose phase profile takes no swap keeps its phase index (R35). -/
theorem State.phaseAfter_same (s t : State) (m : LaneId)
    (h : ∀ k : ProfileId, (s.lane m).hum.profile = some k → t.profile k = s.profile k) :
    s.phaseAfter t m = (s.lane m).hum.index := by
  unfold State.phaseAfter
  split
  · rfl
  · rename_i k hk
    rw [h k hk]
    exact if_neg fun c => absurd (c.1.symm.trans c.2) (by decide)

/-- The lane's own work in the words of the statements: nothing of the part outside the lane's share changes. -/
theorem LaneWork.kept {l : LaneId} {s t : State} (h : LaneWork l s t) :
    WorkKept s t l ∧ OtherLanesKept s t l ∧ ProfilesIfLeft s t l := by
  have f := h.frame
  have w := h.work.frame
  obtain ⟨a1, a2, a3, a4, a5, a6, a7, a8⟩ := w.settings
  refine ⟨⟨w.resetLine, w.deliveryReady, w.ramps, w.control, w.pending, w.intake, a1, a2, a3, a4, a5, a6, a7, a8,
    w.samples, w.config, f.counters, ?_, f.generator, f.otherGenerator, f.repairQueue, f.inProgress, f.waitList⟩,
    fun m hm => ?_, ?_⟩
  · have hn : ¬ (s.checker.lane = some l ∧ (s.lane l).state.isRunning = true ∧ (t.lane l).state.isRunning = false) := by
      rintro ⟨_, h1, h2⟩
      rw [f.state, h1] at h2
      exact absurd h2 (by decide)
    rw [CheckerIfLeft, if_neg hn]
    exact f.checker
  · rw [State.phaseAfter_same _ _ _ fun _ _ => by unfold State.profile; rw [f.profiles]]
    exact f.others m hm
  · have hn : ¬ ((s.lane l).state.isRunning = true ∧ (t.lane l).state.isRunning = false) := by
      rintro ⟨h1, h2⟩
      rw [f.state, h1] at h2
      exact absurd h2 (by decide)
    rw [ProfilesIfLeft, if_neg hn]
    exact f.profiles

/-! ### The primitive operations -/

/-- `LaneWork.modLane` for a change whose text shows that it keeps the record, the state and the phase profile. -/
theorem LaneWork.entry {l : LaneId} (s : State) (f : Lane → Lane)
    (hf : ∀ ln : Lane, (f ln).config = ln.config ∧ (f ln).state = ln.state ∧ (f ln).hum.profile = ln.hum.profile := by
      intro _; exact ⟨rfl, rfl, rfl⟩) : LaneWork l s (s.modLane l f) := .modLane s f hf

theorem LaneWork.modDet {l : LaneId} (s : State) (f : Detector → Detector) : LaneWork l s (s.modDet l f) :=
  .entry s _

theorem LaneWork.phase {l : LaneId} (s : State) (f : LaneHum → LaneHum) (hf : ∀ h, (f h).profile = h.profile) :
    LaneWork l s (s.modHum l f) := .modLane s _ fun ln => ⟨rfl, rfl, hf ln.hum⟩

theorem LaneWork.count {l : LaneId} (s : State) (c : LaneCounter) (n : Nat) : LaneWork l s (s.count l c n) :=
  .entry s _

theorem LaneWork.wake {l : LaneId} (s : State) (m : LaneId) : LaneWork l s (s.wake m) := by
  rw [State.wake_eq]; exact .headWaiting s _

theorem LaneWork.joinWait {l : LaneId} (s : State) : LaneWork l s (s.joinWait l) := by
  rw [State.joinWait_eq]
  refine .waitList s _ ?_
  split <;> simp

theorem LaneWork.leaveWait {l : LaneId} (s : State) : LaneWork l s (s.leaveWait l) := by
  refine .waitList s _ ?_
  simp only [List.filter_filter]
  refine List.filter_congr fun m _ => ?_
  by_cases h : m = l <;> simp [h]

/-- Work of a lane done on one member of a list after another. -/
theorem LaneWork.foldl {l : LaneId} {α : Type} (f : State → α → State) (h : ∀ s a, LaneWork l s (f s a)) :
    ∀ (xs : List α) (s : State), LaneWork l s (xs.foldl f s)
  | [], s => .refl s
  | a :: xs, s => .trans (h s a) (LaneWork.foldl f h xs (f s a))

theorem State.generatorTaken_laneWork (s : State) (l : LaneId) : LaneWork l s (s.generatorTaken l) := by
  unfold State.generatorTaken
  split
  · rename_i h
    exact .generator s _ _ _ h
  · exact .refl s

theorem State.generatorReel_laneWork (s : State) (l : LaneId) : LaneWork l s (s.generatorReel l) := by
  unfold State.generatorReel
  split
  · rename_i h
    exact .generator s _ _ _ h
  · exact .refl s

/-! ### Hum canceller, sample by sample -/

theorem State.spliceResync_laneWork (s : State) (l : LaneId) (p : Option ProfileId) :
    LaneWork l s (s.spliceResync l p) := by
  unfold State.spliceResync
  repeat' split
  all_goals first | exact .refl _ | exact .phase _ _ fun _ => rfl

theorem State.humAdvance_laneWork (s : State) (l : LaneId) (p : Option ProfileId) :
    LaneWork l s (s.humAdvance l p) := by
  unfold State.humAdvance
  split
  · exact .phase _ _ fun _ => rfl
  · exact .refl _

theorem State.reelStartResync_laneWork (s : State) (l : LaneId) : LaneWork l s (s.reelStartResync l) := by
  unfold State.reelStartResync
  dsimp only
  repeat' split
  all_goals first | exact .refl _ | exact .phase _ _ fun _ => rfl

/-! ### Damage detector -/

theorem State.dropRepairEntry_laneWork (s : State) (l : LaneId) (n : Nat) : LaneWork l s (s.dropRepairEntry l n) := by
  refine .repair s _ ?_ fun _ _ => .rfl
  rw [List.filter_filter]
  refine List.filter_congr fun e _ => ?_
  by_cases h : e.lane = l <;> simp [h]

theorem State.abandonRepair_laneWork (s : State) (l : LaneId) (n : Nat) : LaneWork l s (s.abandonRepair l n) := by
  unfold State.abandonRepair
  split
  · rename_i h
    refine (LaneWork.repair s { s.repair with inProgress := none } rfl fun e he => ?_).trans (.wake _ _)
    rw [h]
    simp only [Option.some.injEq, false_iff, reduceCtorEq]
    exact fun c => he (by rw [← c])
  · exact .refl s

theorem State.missRun_laneWork (s : State) (l : LaneId) (seq : SeqNum) : LaneWork l s (s.missRun l seq) := by
  unfold State.missRun
  dsimp only
  split
  · exact .count _ _ _
  · exact ((LaneWork.count s _ _).trans (.fullNoticed _ _)).trans (.issue _ _)

theorem State.openNewRun_laneWork (s : State) (l : LaneId) (seq : SeqNum) (cs : Causes) :
    LaneWork l s (s.openNewRun l seq cs) := by
  unfold State.openNewRun
  split
  · exact .modDet _ _
  · exact s.missRun_laneWork _ _

theorem State.openRun_laneWork (s : State) (l : LaneId) (c : LaneConfig) (seq : SeqNum) (cs : Causes) :
    LaneWork l s (s.openRun l c seq cs) := by
  unfold State.openRun
  dsimp only
  split
  · split
    · exact (s.dropRepairEntry_laneWork _ _).trans (.modDet _ _)
    · exact s.openNewRun_laneWork _ _ _
  · exact s.openNewRun_laneWork _ _ _

theorem State.joinRun_laneWork (s : State) (l : LaneId) (c : LaneConfig) (seq : SeqNum) (cs : Causes) :
    LaneWork l s (s.joinRun l c seq cs) := by
  unfold State.joinRun
  split
  · exact .modDet _ _
  · exact s.openRun_laneWork _ _ _ _

theorem State.reportRelease_laneWork (s : State) (l : LaneId) (r : RunRecord) :
    LaneWork l s (s.reportRelease l r) := by
  unfold State.reportRelease
  split
  · exact .count _ _ _
  · exact (LaneWork.count s _ _).trans (.issue _ _)
  all_goals exact .refl _

theorem State.releaseRuns_laneWork (s : State) (l : LaneId) : LaneWork l s (s.releaseRuns l) := by
  unfold State.releaseRuns
  dsimp only
  split
  · exact .refl _
  · exact ((LaneWork.modDet s _).trans (.fullNoticed _ _)).trans
      (LaneWork.foldl _ (fun s r => s.reportRelease_laneWork l r) _ _)

theorem State.closeRun_laneWork (s : State) (l : LaneId) (c : LaneConfig) (r : RunRecord) (a : Option Sample) :
    LaneWork l s (s.closeRun l c r a) := by
  unfold State.closeRun
  dsimp only
  refine LaneWork.trans ?_ (State.releaseRuns_laneWork _ _)
  split
  · refine (LaneWork.modDet s _).trans (.repair _ _ ?_ fun _ _ => .rfl)
    simp
  · exact .modDet _ _

theorem State.calmSample_laneWork (s : State) (l : LaneId) (c : LaneConfig) (v : Sample) :
    LaneWork l s (s.calmSample l c v) := by
  unfold State.calmSample
  dsimp only
  split
  · split
    · exact s.closeRun_laneWork _ _ _ _
    · exact .modDet _ _
  · exact .refl _

theorem State.detect_laneWork (s : State) (l : LaneId) (c : LaneConfig) (seq : SeqNum) (spans : List (Causes × Nat))
    (v : Sample) : LaneWork l s (s.detect l c seq spans v) := by
  unfold State.detect
  dsimp only
  refine (LaneWork.modDet s fun d => d.beginSpans spans).trans ?_
  generalize s.modDet l (fun d => d.beginSpans spans) = s1
  refine LaneWork.trans ?_ (.modDet _ _)
  split
  · exact (State.joinRun_laneWork _ _ _ _ _).trans (.modDet _ _)
  · split
    · exact State.joinRun_laneWork _ _ _ _ _
    · exact State.calmSample_laneWork _ _ _ _

/-! ### Entry of samples and marks -/

theorem State.spliceLate_laneWork (s : State) (l : LaneId) (seq : SeqNum) : LaneWork l s (s.spliceLate l seq) :=
  (LaneWork.count s _ _).trans (.issue _ _)

theorem State.lateMarks_laneWork (s : State) (l : LaneId) : LaneWork l s (s.lateMarks l) := by
  unfold State.lateMarks
  split
  · exact .refl _
  · exact (LaneWork.entry s _).trans
      (LaneWork.foldl _ (fun s (m : MarkEntry) => s.spliceLate_laneWork l m.seq) _ _)

theorem State.watch_laneWork (s : State) (l : LaneId) (seq : SeqNum) (ws : List Sample) :
    LaneWork l s (s.watch l seq ws) := by
  unfold State.watch
  split
  · exact (LaneWork.count s _ _).trans (.issue _ _)
  · exact .refl _

theorem State.gapFound_laneWork (s : State) (l : LaneId) (n : SeqNum) (d : Nat) : LaneWork l s (s.gapFound l n d) :=
  ((LaneWork.count s _ _).trans (.count _ _ _)).trans (.issue _ _)

theorem State.continuity_laneWork (s : State) (l : LaneId) (n : SeqNum) : LaneWork l s (s.continuity l n) := by
  unfold State.continuity
  dsimp only
  split
  · exact .entry _ _
  · exact (s.gapFound_laneWork l n _).trans (.entry _ _)

theorem State.countEntered_laneWork (s : State) (l : LaneId) (n : Nat) : LaneWork l s (s.countEntered l n) :=
  (LaneWork.count s _ _).trans (.count _ _ _)

theorem State.enterSample_laneWork (s : State) (l : LaneId) (e : EntryPlan) (i : Nat) (raw : Sample) :
    LaneWork l s (s.enterSample l e i raw) := by
  unfold State.enterSample
  dsimp only
  refine LaneWork.trans (t := if e.spliceOffsets.contains i then s.spliceResync l e.config.humProfile else s) ?_ ?_
  · split
    · exact s.spliceResync_laneWork _ _
    · exact .refl _
  · exact ((State.humAdvance_laneWork _ _ _).trans (State.detect_laneWork _ _ _ _ _ _)).trans
      (.entry _ _)

theorem State.enterSamples_laneWork : ∀ (vs : List Sample) (i : Nat) (l : LaneId) (e : EntryPlan) (s : State),
    LaneWork l s (State.enterSamples vs i l e s)
  | [], _, _, _, s => .refl s
  | v :: vs, i, l, e, s => (s.enterSample_laneWork l e i v).trans (State.enterSamples_laneWork vs (i + 1) l e _)

theorem State.placeMark_laneWork (s : State) (l : LaneId) (m : MarkEntry) : LaneWork l s (s.placeMark l m) := by
  unfold State.placeMark
  dsimp only
  split
  · exact ((LaneWork.entry _ _).trans (.count _ _ _)).trans (State.spliceLate_laneWork _ _ _)
  · exact (LaneWork.entry _ _).trans (.count _ _ _)

theorem State.offerMark_laneWork (s : State) (l : LaneId) (m : MarkEntry) : LaneWork l s (s.offerMark l m).2 := by
  unfold State.offerMark
  split
  · exact s.placeMark_laneWork l m
  · exact (LaneWork.count _ _ _).trans (.issue _ _)

theorem State.forwardMark_laneWork (s : State) (l : LaneId) (m : MarkEntry) (room : s.sampleRoom = true) :
    LaneWork l s (s.forwardMark l m) := (LaneWork.push s _ room).trans (.count _ _ _)

/-! ### Hiss gate and output assembly -/

theorem State.gateStep_laneWork (s : State) (l : LaneId) (b : AssemblyBody) : LaneWork l s (s.gateStep l b) := by
  unfold State.gateStep
  dsimp only
  repeat' split
  · exact (LaneWork.entry s _).trans (.issue _ _)
  · exact .entry _ _
  · exact .entry _ _

theorem State.setAssembly_laneWork (s : State) (l : LaneId) (a : Assembly) : LaneWork l s (s.setAssembly l a) :=
  .entry _ _

theorem State.placePart_laneWork (s : State) (l : LaneId) (room : s.sampleRoom = true) :
    LaneWork l s (s.placePart l) := by
  unfold State.placePart
  split
  · exact ((LaneWork.push s _ room).trans (State.setAssembly_laneWork _ _ _)).trans (.wake _ _)
  · exact ((LaneWork.push s _ room).trans (State.setAssembly_laneWork _ _ _)).trans (.wake _ _)
  all_goals exact .refl _

theorem State.placeParts_laneWork : ∀ (n : Nat) (l : LaneId) (s : State), LaneWork l s (State.placeParts n l s)
  | 0, _, s => .refl s
  | n + 1, l, s => by
    unfold State.placeParts
    split
    · rename_i h
      simp only [Bool.and_eq_true] at h
      exact (s.placePart_laneWork l h.2).trans (State.placeParts_laneWork n l _)
    · exact .refl s

theorem State.placeAssembly_laneWork (s : State) (l : LaneId) : LaneWork l s (s.placeAssembly l) := by
  unfold State.placeAssembly
  dsimp only
  split
  · exact State.placeParts_laneWork _ _ _
  · exact (State.placeParts_laneWork _ _ _).trans (.joinWait _)

theorem State.placeTrailing_laneWork (s : State) (l : LaneId) (room : s.sampleRoom = true) :
    LaneWork l s (s.placeTrailing l) := by
  unfold State.placeTrailing
  split
  · exact .refl _
  · dsimp only
    split
    · exact ((LaneWork.entry s _).trans (State.spliceLate_laneWork _ _ _)).trans
        (.push _ _ (by simpa [State.sampleRoom, State.spliceLate] using room))
    · exact (LaneWork.entry s _).trans (.push _ _ room)

theorem State.placeTrailings_laneWork : ∀ (n : Nat) (l : LaneId) (s : State), LaneWork l s (State.placeTrailings n l s)
  | 0, _, s => .refl s
  | n + 1, l, s => by
    unfold State.placeTrailings
    split
    · rename_i h
      simp only [Bool.and_eq_true] at h
      exact (s.placeTrailing_laneWork l h.2).trans (State.placeTrailings_laneWork n l _)
    · exact .refl s

theorem State.placeTrailingMarks_laneWork (s : State) (l : LaneId) : LaneWork l s (s.placeTrailingMarks l) := by
  unfold State.placeTrailingMarks
  dsimp only
  split
  · exact (State.placeTrailings_laneWork _ _ _).trans (.joinWait _)
  · exact State.placeTrailings_laneWork _ _ _

theorem State.completeAssembly_laneWork (s : State) (l : LaneId) (b : AssemblyBody) :
    LaneWork l s (s.completeAssembly l b) :=
  ((s.gateStep_laneWork l b).trans (.entry _ _)).trans (State.placeAssembly_laneWork _ _)

theorem State.takeWord_laneWork (s : State) (l : LaneId) (r : Route) : LaneWork l s (s.takeWord l r) := by
  unfold State.takeWord
  split
  · exact s.generatorTaken_laneWork _
  · exact .refl _

theorem State.collect_laneWork (s : State) (l : LaneId) (p : HeldParcel) (v : Sample) (t : Treatment) (f : Bool) :
    LaneWork l s (s.collect l p v t f) := by
  unfold State.collect
  dsimp only
  split
  · exact ((State.takeWord_laneWork s l _).trans (State.setAssembly_laneWork _ _ _)).trans
      (State.completeAssembly_laneWork _ _ _)
  · exact (State.takeWord_laneWork s l _).trans (State.setAssembly_laneWork _ _ _)

/-! ### Departure up to the state change -/

/-- Overtaking a growing run changes the detector only. -/
theorem Lane.overtake_kept (ln : Lane) (x : Nat) :
    (ln.overtake x).config = ln.config ∧ (ln.overtake x).state = ln.state
      ∧ (ln.overtake x).hum.profile = ln.hum.profile := by
  unfold Lane.overtake
  repeat' split
  all_goals exact ⟨rfl, rfl, rfl⟩

/-- Repairing a run changes the hold line and the run list only. -/
theorem Lane.repairRun_kept (ln : Lane) (n : Nat) :
    (ln.repairRun n).config = ln.config ∧ (ln.repairRun n).state = ln.state
      ∧ (ln.repairRun n).hum.profile = ln.hum.profile := by
  unfold Lane.repairRun
  split <;> exact ⟨rfl, rfl, rfl⟩

theorem State.departOne_laneWork (s : State) (l : LaneId) : LaneWork l s (s.departOne l) := by
  unfold State.departOne
  split
  · exact .refl _
  · dsimp only
    exact ((((LaneWork.modLane s _ fun ln => ln.overtake_kept _).trans (.entry _ _)).trans
      (.wake _ _)).trans (State.collect_laneWork _ _ _ _ _ _)).trans (State.releaseRuns_laneWork _ _)

theorem State.departUpTo_laneWork : ∀ (n : Nat) (l : LaneId) (s : State), LaneWork l s (State.departUpTo n l s)
  | 0, _, s => .refl s
  | n + 1, l, s => by
    unfold State.departUpTo
    split
    · exact (s.departOne_laneWork l).trans (State.departUpTo_laneWork n l _)
    · exact .refl s

/-- Departure is the lane's own work and, last, the drain or stall test, which alone may change the lane's state. -/
theorem State.depart_laneWork (s : State) (l : LaneId) : ∃ t, LaneWork l s t ∧ s.depart l = t.settle l :=
  ⟨_, (State.departUpTo_laneWork _ _ _).trans (State.placeTrailingMarks_laneWork _ _), rfl⟩

/-- A flush is the lane's own work and, last, the drain or stall test. -/
theorem State.flush_laneWork (s : State) (l : LaneId) : ∃ t, LaneWork l s t ∧ s.flush l = t.settle l :=
  ⟨((State.departUpTo ((s.modDet l Detector.cut).lane l).occupancy l (s.modDet l Detector.cut)).releaseRuns
      l).placeTrailingMarks l,
    (((LaneWork.modDet s Detector.cut).trans (State.departUpTo_laneWork _ _ _)).trans
      (State.releaseRuns_laneWork _ _)).trans (State.placeTrailingMarks_laneWork _ _), rfl⟩

/-- The rewriting of a repaired run is the lane's own work. -/
theorem State.repairRun_laneWork (s : State) (l : LaneId) (n : Nat) :
    LaneWork l s (s.modLane l fun ln => ln.repairRun n) := .modLane s _ fun ln => ln.repairRun_kept n

/-- Giving up the run whose deadline has come is the lane's own work, up to the departure that follows (R86). -/
theorem State.takeDeadline_laneWork (s : State) (l : LaneId) (n : Nat) :
    ∃ t, LaneWork l s t ∧ s.takeDeadline l n = t.depart l :=
  ⟨_, ((s.dropRepairEntry_laneWork l n).trans (State.abandonRepair_laneWork _ _ _)).trans (.modDet _ _), rfl⟩

/-! ### A lane that changes its state -/

/-- A change of state outside RUNNING, into RUNNING or within it changes the lane's entry and offers its head again. -/
theorem State.changeState_staying (s : State) (l : LaneId) (st : LaneState)
    (h : (s.lane l).state.isRunning = false ∨ st.isRunning = true) :
    s.changeState l st =
      (s.modLane l fun ln =>
        { ln with state := st, timer := if st = .running false then ln.timer else ln.timer.stop }).wake l := by
  have hc : ((s.lane l).state.isRunning && !st.isRunning) = false := by
    rcases h with h | h <;> simp [h]
  simp only [State.changeState, hc, Bool.false_eq_true, if_false]

/-- No lane uses profile k (R31). -/
theorem State.hasUser_eq_false (s : State) (k : ProfileId) :
    s.hasUser k = false ↔ ∀ m : LaneId, (s.lane m).uses k = false := by
  unfold State.hasUser State.lane
  rw [List.any_eq_false]
  constructor
  · intro h m
    have := h s.lanes[m] (by simp)
    simpa using this
  · intro h ln hl
    obtain ⟨i, hi, rfl⟩ := List.mem_iff_getElem.mp hl
    have := h ⟨i, by simpa using hi⟩
    simpa using this

/-- A swap, with its changes to the profile and to the lanes written out (R35). -/
theorem State.swap_eq (s : State) (k : ProfileId) (lane : Option LaneId) (seq : SeqNum) :
    s.swap k lane seq =
      State.issue
        { s with
          profiles := s.profiles.set k
            { s.profile k with serving := (s.profile k).serving.other, swapPending := false }
          lanes := s.lanes.map fun (ln : Lane) =>
            if ln.hum.profile = some k then
              { ln with
                hum := { ln.hum with
                  index := ln.hum.index % ((s.profile k).bank (s.profile k).serving.other).length } }
            else ln }
        { kind := .humSwapped, lane := lane, seq := seq, detail := BitVec.ofNat 16 k.val
          causes := { detected := false, splice := false, junction := false, conceal := false } } := rfl

/-- The checker's return to SEARCH when the lane attached to it leaves RUNNING (R128). -/
theorem State.checkerLoss_eq (s : State) (l : LaneId) (seq : SeqNum) (detail : Word) :
    s.checkerLoss l seq detail =
      if s.checker.lane = some l then
        if s.checker.state.isLocked = true then
          State.issue { s with checker := { s.checker with state := .search } }
            { kind := .checkLost, lane := some l, seq := seq, detail := detail
              causes := { detected := false, splice := false, junction := false, conceal := false } }
        else { s with checker := { s.checker with state := .search } }
      else s := by
  unfold State.checkerLoss State.checkerSearch Checker.notice
  split
  · rename_i h
    rw [h]
    rfl
  · rfl

/-- What the part makes of a profile without a user and of a checker whose lane has left RUNNING is `State.leftBy`. -/
theorem State.leftBy_eq (u : State) (l : LaneId) (old : Option ProfileId) :
    (u.userLeft old).checkerLoss l 0 1 = u.leftBy l old := by
  rw [State.checkerLoss_eq]
  unfold State.leftBy
  cases old with
  | none => rfl
  | some k =>
    have h : u.userLeft (some k) =
        if (u.profile k).swapPending = true ∧ ∀ m : LaneId, (u.lane m).uses k = false then u.swap k none 0 else u := by
      simp only [State.userLeft, State.swapIfUnused, Bool.and_eq_true, Bool.not_eq_true', State.hasUser_eq_false]
    rw [h]
    simp only [State.swap_eq]

/-- A change of state that leaves RUNNING. -/
theorem State.changeState_leaving (s : State) (l : LaneId) (st : LaneState)
    (h : (s.lane l).state.isRunning = true) (hst : st.isRunning = false) :
    s.changeState l st =
      ((s.modLane l fun ln =>
        { ln with state := st, timer := if st = .running false then ln.timer else ln.timer.stop }).wake l).leftBy l
          (s.lane l).hum.profile := by
  rw [← State.leftBy_eq]
  simp only [State.changeState, h, hst, Bool.not_false, Bool.and_self, if_true]

/-- The profiles after a lane's leaving RUNNING (R38). -/
theorem State.profile_leftBy (u : State) (l : LaneId) (old : Option ProfileId) (k : ProfileId) :
    (u.leftBy l old).profile k =
      if old = some k ∧ (u.profile k).swapPending = true ∧ ∀ m : LaneId, (u.lane m).uses k = false then
        (u.profile k).swapped
      else u.profile k := by
  have h : (u.leftBy l old).profile k = (u.userLeft old).profile k := by
    rw [← State.leftBy_eq, State.checkerLoss_eq]
    repeat' split
    all_goals rfl
  rw [h]
  cases old with
  | none => simp [State.userLeft]
  | some j =>
    simp only [State.userLeft, State.swapIfUnused, Bool.and_eq_true, Bool.not_eq_true', State.hasUser_eq_false,
      Option.some.injEq]
    by_cases hj : j = k
    · subst hj
      simp only [true_and]
      split
      · unfold State.swap
        dsimp only
        rw [State.profile_issue]
        exact State.profile_modProfile_same u j _
      · rfl
    · simp only [hj, false_and, if_false]
      split
      · unfold State.swap
        dsimp only
        rw [State.profile_issue]
        exact State.profile_modProfile_ne u _ (Ne.symm hj)
      · rfl

/-- The lanes after a lane's leaving RUNNING: the phase indices of a profile whose swap is taken (R35, R38). -/
theorem State.lane_leftBy (u : State) (l : LaneId) (old : Option ProfileId) (m : LaneId) :
    (u.leftBy l old).lane m =
      { u.lane m with hum := { (u.lane m).hum with index := u.phaseAfter (u.leftBy l old) m } } := by
  have h : (u.leftBy l old).lane m = (u.userLeft old).lane m := by
    rw [← State.leftBy_eq, State.checkerLoss_eq]
    repeat' split
    all_goals rfl
  have same : u.phaseAfter (u.leftBy l old) m = (u.lane m).hum.index →
      u.lane m =
        { u.lane m with hum := { (u.lane m).hum with index := u.phaseAfter (u.leftBy l old) m } } := by
    intro e; rw [e]
  rw [h]
  by_cases hs : ∃ k, old = some k ∧ (u.profile k).swapPending = true ∧ ∀ m : LaneId, (u.lane m).uses k = false
  · obtain ⟨k, rfl, hp, hu⟩ := hs
    have hl : u.userLeft (some k) = u.swap k none 0 := by
      simp [State.userLeft, State.swapIfUnused, hp, (State.hasUser_eq_false u k).mpr hu]
    rw [hl, State.lane_swap]
    by_cases hm : (u.lane m).hum.profile = some k
    · have : u.phaseAfter (u.leftBy l (some k)) m
          = (u.lane m).hum.index % (u.profile k).swapped.servingBank.length := by
        unfold State.phaseAfter
        rw [hm]
        dsimp only
        have hk : (u.leftBy l (some k)).profile k = (u.profile k).swapped := by
          rw [State.profile_leftBy, if_pos ⟨rfl, hp, hu⟩]
        rw [hk, if_pos ⟨hp, rfl⟩]
        rfl
      rw [this, Lane.reducePhase, if_pos hm]
    · rw [Lane.reducePhase, if_neg hm]
      refine same (State.phaseAfter_same _ _ _ fun j hj => ?_)
      rw [State.profile_leftBy, if_neg]
      rintro ⟨hk, -⟩
      exact hm (by rw [hj, hk])
  · have hl : u.userLeft old = u := by
      cases old with
      | none => rfl
      | some k =>
        simp only [State.userLeft, State.swapIfUnused, Bool.and_eq_true, Bool.not_eq_true', State.hasUser_eq_false]
        rw [if_neg]
        exact fun c => hs ⟨k, rfl, c⟩
    rw [hl]
    refine same (State.phaseAfter_same _ _ _ fun j _ => ?_)
    rw [State.profile_leftBy, if_neg]
    exact fun c => hs ⟨j, c⟩

/-- The checker after a lane's leaving RUNNING (R128). -/
theorem State.checker_leftBy (u : State) (l : LaneId) (old : Option ProfileId) :
    (u.leftBy l old).checker =
      if u.checker.lane = some l then { u.checker with state := .search } else u.checker := by
  have h : (u.userLeft old).checker = u.checker := by
    unfold State.userLeft State.swapIfUnused State.swap
    repeat' split
    all_goals rfl
  rw [← State.leftBy_eq, State.checkerLoss_eq, h]
  repeat' split
  all_goals first | rfl | simp [h]

/-! ### The share of a lane in any work of its own -/

/-- What any work of lane l, a change of its state included, leaves of the shared units: only the lane's own entries, a
generator attached to it, and the notices move. -/
structure LaneShare (l : LaneId) (s t : State) : Prop where
  work : Work.Frame s t
  generator : t.generator =
    { s.generator with next := t.generator.next, single := t.generator.single, countdown := t.generator.countdown }
  otherGenerator : s.generator.lane ≠ some l → t.generator = s.generator
  repairQueue :
    (t.repair.queue.filter fun e => decide (e.lane ≠ l)) = s.repair.queue.filter (fun e => decide (e.lane ≠ l))
  inProgress : ∀ e : RepairEntry, e.lane ≠ l → (t.repair.inProgress = some e ↔ s.repair.inProgress = some e)
  waitList : (t.waitList.filter fun m => decide (m ≠ l)) = s.waitList.filter (fun m => decide (m ≠ l))
  counters : ∀ c : DeliveryCounter, c ≠ .noticesDiscarded → t.delivery.counter c = s.delivery.counter c

theorem LaneWork.share {l : LaneId} {s t : State} (h : LaneWork l s t) : LaneShare l s t :=
  have f := h.frame
  ⟨h.work.frame, f.generator, f.otherGenerator, f.repairQueue, f.inProgress, f.waitList, f.counters⟩

/-- Work that leaves the generator, the repair unit, the wait list and the delivery counters to their share. -/
theorem LaneShare.trans {l : LaneId} {s t u : State} (h : LaneShare l s t) (k : LaneShare l t u) : LaneShare l s u where
  work := by
    obtain ⟨p1, e1⟩ := h.work.samples
    obtain ⟨p2, e2⟩ := k.work.samples
    have a := h.work
    have b := k.work
    refine ⟨b.resetLine.trans a.resetLine, b.deliveryReady.trans a.deliveryReady, b.ramps.trans a.ramps,
      b.control.trans a.control, b.pending.trans a.pending, ?_, a.settings.trans b.settings,
      fun m => (b.config m).trans (a.config m), ⟨p1 ++ p2, by rw [e2, e1, List.append_assoc]⟩,
      fun c => b.capacity (a.capacity c)⟩
    rw [b.intake, a.intake]
  generator := by rw [k.generator, h.generator]
  otherGenerator hs := by
    have ht := h.otherGenerator hs
    rw [k.otherGenerator (by rw [ht]; exact hs), ht]
  repairQueue := k.repairQueue.trans h.repairQueue
  inProgress e he := (k.inProgress e he).trans (h.inProgress e he)
  waitList := k.waitList.trans h.waitList
  counters c hc := (k.counters c hc).trans (h.counters c hc)

/-- Work that touches no shared unit but the notices and the sample queue is within any lane's share. -/
theorem LaneShare.ofWork {l : LaneId} {s t : State} (w : Work s t) (hg : t.generator = s.generator)
    (hr : t.repair = s.repair) (hw : t.waitList = s.waitList)
    (hc : ∀ c : DeliveryCounter, c ≠ .noticesDiscarded → t.delivery.counter c = s.delivery.counter c) :
    LaneShare l s t :=
  ⟨w.frame, by rw [hg], fun _ => hg, by rw [hr], fun _ _ => by rw [hr], by rw [hw], hc⟩

theorem State.leftBy_share (u : State) (l m : LaneId) (old : Option ProfileId) : LaneShare m u (u.leftBy l old) := by
  have first : LaneShare m u (u.userLeft old) := by
    refine .ofWork (u.userLeft_work old) ?_ ?_ ?_ ?_
    all_goals
      unfold State.userLeft State.swapIfUnused State.swap
      repeat' split
    all_goals first | rfl | exact fun _ _ => rfl | exact fun c hc => DeliveryPort.counter_issue _ _ c hc
  have second : LaneShare m (u.userLeft old) ((u.userLeft old).checkerLoss l 0 1) := by
    refine .ofWork ((u.userLeft old).checkerLoss_work l 0 1) ?_ ?_ ?_ ?_
    all_goals
      rw [State.checkerLoss_eq]
      repeat' split
    all_goals first | rfl | exact fun _ _ => rfl | exact fun c hc => DeliveryPort.counter_issue _ _ c hc
  rw [← State.leftBy_eq]
  exact first.trans second

theorem LaneShare.modLane {l : LaneId} (s : State) (m : LaneId) (f : Lane → Lane)
    (hf : ∀ ln : Lane, (f ln).config = ln.config := by intro _; rfl) : LaneShare l s (s.modLane m f) :=
  .ofWork (.modLane s m f hf) rfl rfl rfl fun _ _ => rfl

theorem LaneShare.wake {l : LaneId} (s : State) (m : LaneId) : LaneShare l s (s.wake m) :=
  .ofWork (.wake s m) (by simp) (by simp) (by simp) fun _ _ => by rw [State.delivery_wake]

theorem LaneShare.issue {l : LaneId} (s : State) (n : Notice) : LaneShare l s (s.issue n) :=
  .ofWork (.issue s n) rfl rfl rfl fun c hc => s.delivery.counter_issue n c hc

/-- Work within the lane's share in the words of the statements. -/
theorem LaneShare.kept {l : LaneId} {s t : State} (h : LaneShare l s t) (hc : CheckerIfLeft s t l) :
    WorkKept s t l := by
  have w := h.work
  obtain ⟨a1, a2, a3, a4, a5, a6, a7, a8⟩ := w.settings
  exact ⟨w.resetLine, w.deliveryReady, w.ramps, w.control, w.pending, w.intake, a1, a2, a3, a4, a5, a6, a7, a8,
    w.samples, w.config, h.counters, hc, h.generator, h.otherGenerator, h.repairQueue, h.inProgress, h.waitList⟩

/-- Work of a lane that does not leave RUNNING, with the other lanes, the profiles and the checker as they were. -/
theorem LaneShare.keptStaying {l : LaneId} {s t : State} (h : LaneShare l s t)
    (others : ∀ m : LaneId, m ≠ l → t.lane m = s.lane m) (profiles : t.profiles = s.profiles)
    (checker : t.checker = s.checker)
    (stays : (s.lane l).state.isRunning = false ∨ (t.lane l).state.isRunning = true) :
    WorkKept s t l ∧ OtherLanesKept s t l ∧ ProfilesIfLeft s t l := by
  have hn : ¬ ((s.lane l).state.isRunning = true ∧ (t.lane l).state.isRunning = false) := by
    rintro ⟨h1, h2⟩
    rcases stays with h | h
    · exact absurd (h1.symm.trans h) (by decide)
    · exact absurd (h2.symm.trans h) (by decide)
  refine ⟨h.kept ?_, fun m hm => ?_, ?_⟩
  · rw [CheckerIfLeft, if_neg fun c => hn c.2]
    exact checker
  · rw [State.phaseAfter_same _ _ _ fun _ _ => by unfold State.profile; rw [profiles]]
    exact others m hm
  · rw [ProfilesIfLeft, if_neg hn]
    exact profiles

/-- A lane leaves RUNNING after its own work, and what follows changes no other lane, profile or checker (R38, R128). -/
theorem LaneShare.keptLeaving {l : LaneId} {s u t : State} (h : LaneShare l s t)
    (others : ∀ m : LaneId, m ≠ l → u.lane m = s.lane m) (profiles : u.profiles = s.profiles)
    (checker : u.checker = s.checker) (was : (s.lane l).state.isRunning = true)
    (left : (u.lane l).state.isRunning = false)
    (ht : ∀ m : LaneId, m ≠ l → t.lane m = (u.leftBy l (s.lane l).hum.profile).lane m)
    (now : (t.lane l).state.isRunning = false) (hp : t.profiles = (u.leftBy l (s.lane l).hum.profile).profiles)
    (hc : t.checker = (u.leftBy l (s.lane l).hum.profile).checker) :
    WorkKept s t l ∧ OtherLanesKept s t l ∧ ProfilesIfLeft s t l := by
  have hprof : ∀ k, t.profile k = (u.leftBy l (s.lane l).hum.profile).profile k := fun k => by
    unfold State.profile; rw [hp]
  have uprof : ∀ k, u.profile k = s.profile k := fun k => by unfold State.profile; rw [profiles]
  refine ⟨h.kept ?_, fun m hm => ?_, ?_⟩
  · rw [CheckerIfLeft, hc, State.checker_leftBy, checker]
    by_cases hl : s.checker.lane = some l <;> simp [hl, was, now]
  · have hph : u.phaseAfter (u.leftBy l (s.lane l).hum.profile) m = s.phaseAfter t m := by
      unfold State.phaseAfter
      rw [others m hm]
      simp only [uprof, hprof]
    rw [ht m hm, State.lane_leftBy, hph, others m hm]
  · rw [ProfilesIfLeft, if_pos ⟨was, now⟩]
    intro k
    have hu : (∀ m : LaneId, (u.lane m).uses k = false) ↔ ∀ m : LaneId, m ≠ l → (s.lane m).uses k = false := by
      constructor
      · intro c m hm
        rw [← others m hm]
        exact c m
      · intro c m
        by_cases hm : m = l
        · subst hm; simp [Lane.uses, left]
        · rw [others m hm]; exact c m hm
    have hk : (s.lane l).uses k = true ↔ (s.lane l).hum.profile = some k := by simp [Lane.uses, was]
    rw [hprof, State.profile_leftBy]
    simp only [uprof, hu, hk]
    rfl

/-- The lane's own work and then its drain or stall test (R10, R26). -/
theorem LaneWork.settleKept {l : LaneId} {s t : State} (h : LaneWork l s t) :
    WorkKept s (t.settle l) l ∧ OtherLanesKept s (t.settle l) l ∧ ProfilesIfLeft s (t.settle l) l := by
  have f := h.frame
  unfold State.settle
  dsimp only
  split
  · split
    · rename_i hst
      have hs : (s.lane l).state.isRunning = false := by rw [← f.state, hst]; rfl
      have he : t.becomeOff l =
          ((t.modLane l fun ln =>
            { ln with state := .off, timer := ln.timer.stop }).wake l).modLane l Lane.clearedOff := by
        unfold State.becomeOff
        rw [State.changeState_staying _ _ _ (.inl (by rw [hst]; rfl))]
        rfl
      rw [he]
      refine LaneShare.keptStaying
        (((h.share.trans (.modLane _ _ _)).trans (.wake _ _)).trans (.modLane _ _ _) |>.trans (.issue _ _))
        (fun m hm => ?_) ?_ ?_ (.inl hs)
      · rw [State.lane_issue, State.lane_modLane_ne _ _ hm, State.lane_wake, State.lane_modLane_ne _ _ hm, f.others m hm]
      · simp [f.profiles]
      · simp [f.checker]
    · rename_i hst
      have hs : (s.lane l).state.isRunning = false := by rw [← f.state, hst]; rfl
      rw [State.changeState_staying _ _ _ (.inl (by rw [hst]; rfl))]
      refine LaneShare.keptStaying ((h.share.trans (.modLane _ _ _)).trans (.wake _ _) |>.trans (.issue _ _))
        (fun m hm => ?_) ?_ ?_ (.inl hs)
      · rw [State.lane_issue, State.lane_wake, State.lane_modLane_ne _ _ hm, f.others m hm]
      · simp [f.profiles]
      · simp [f.checker]
    · rename_i hst
      have hs : (s.lane l).state.isRunning = true := by rw [← f.state, hst]; rfl
      rw [State.changeState_leaving _ _ _ (by rw [hst]; rfl) rfl, f.phaseProfile]
      refine LaneShare.keptLeaving
        (u := (t.modLane l fun ln =>
          { ln with state := .stalled, timer := if LaneState.stalled = .running false then ln.timer else ln.timer.stop }).wake l)
        ((((h.share.trans (.modLane _ _ _)).trans (.wake _ _)).trans (State.leftBy_share _ _ _ _)).trans
          (.modLane _ _ fun ln => ln.bump .stalls 1) |>.trans (.issue _ _))
        (fun m hm => ?_) ?_ ?_ hs ?_ (fun m hm => ?_) ?_ rfl rfl
      · rw [State.lane_wake, State.lane_modLane_ne _ _ hm, f.others m hm]
      · simp [f.profiles]
      · simp [f.checker]
      · rw [State.lane_wake, State.lane_modLane_same]; rfl
      · rw [State.lane_issue, State.lane_count_ne _ _ _ hm]
      · rw [State.lane_issue, State.lane_count_same, Lane.bump, State.lane_leftBy, State.lane_wake,
          State.lane_modLane_same]
        rfl
    all_goals exact h.kept
  · exact h.kept

/-- What departure leaves of the rest of the part. -/
theorem State.depart_kept (s : State) (l : LaneId) :
    WorkKept s (s.depart l) l ∧ OtherLanesKept s (s.depart l) l ∧ ProfilesIfLeft s (s.depart l) l := by
  obtain ⟨t, h, e⟩ := s.depart_laneWork l
  rw [e]
  exact h.settleKept

end Sys2Proof.Machine
end

