-- ==== Sys2Proof/Laws/Take.lean ====
section
/-! SUPPORT. The take of a command, said once: what a take that is due answers, given what the command's own rule answers.
Every claim about a command goes through these lemmas. -/

namespace Sys2Proof.Machine

/-- A take that is due answers what its command's rule answers, with the REPLY queued (R166). -/
theorem takeCommand_ready {s : State} {tag code : Word} {args : List Word} {rest : List ControlParcel}
    (rule : List Word → State → CommandResult) (h : TakeReady s tag code args rest) :
    takeCommand code rule s
      = .next ((rule args (s.beginTake rest)).after.queueReply tag (rule args (s.beginTake rest))) := by
  obtain ⟨h1, h2, h3⟩ := h
  have hd : s.takeDue = true := decide_eq_true h2
  unfold takeCommand whileRunning takeWhen
  rw [h1, h3]
  simp [ControlParcel.code?, ControlParcel.args, hd]

/-- A REPLY queued for a command that is not refused (R168). -/
theorem State.queueReply_kept (t : State) (tag : Word) (o : OutcomeCode) (ws : List Word) :
    t.queueReply tag { outcome := o, refused := false, words := ws, after := t }
      = t.replied tag t.control.queue o false ws := rfl

/-- A REPLY queued for a refused command (R167, R168). -/
theorem State.queueReply_refused (t : State) (tag : Word) (o : OutcomeCode) :
    t.queueReply tag { outcome := o, refused := true, words := [], after := t }
      = t.replied tag t.control.queue o true [] := rfl

/-- A take that is due, of a command whose rule answers DONE with its effects made (R166). The REPLY covers the head's
leaving and the place set aside, so t may be written as a change of the state before the take. -/
theorem takeCommand_done {s t u : State} {tag code : Word} {args ws : List Word} {rest : List ControlParcel}
    {rule : List Word → State → CommandResult} (h : TakeReady s tag code args rest)
    (hr : rule args (s.beginTake rest) = doneWith ws u)
    (hu : u.replied tag u.control.queue .done false ws = t.done tag rest ws := by rfl) :
    takeCommand code rule s = .next (t.done tag rest ws) := by
  rw [takeCommand_ready rule h, hr]
  exact congrArg Host.Outcome.next hu

/-- A take that is due, of a command whose rule refuses it: the part is as it was but for the REPLY (R167). -/
theorem takeCommand_denied {s : State} {tag code : Word} {args : List Word} {rest : List ControlParcel}
    {rule : List Word → State → CommandResult} {o : OutcomeCode} (h : TakeReady s tag code args rest)
    (hr : rule args (s.beginTake rest) = refuse o (s.beginTake rest)) :
    takeCommand code rule s = .next (s.denied tag rest o) := by
  rw [takeCommand_ready rule h, hr]
  rfl

end Sys2Proof.Machine
end

