-- ==== Sys2Proof/Laws/Operands.lean ====
section
/-! SUPPORT. The operands of commands: each argument word that codes a value reads back as that value, and each that is
out of its range is refused (R179). -/

namespace Sys2Proof.Machine

theorem toNat_ofNat_word {n : Nat} (h : n < 65536) : (BitVec.ofNat 16 n).toNat = n := by
  simp
  omega

theorem argLane_ofNat : ∀ l : LaneId, argLane (BitVec.ofNat 16 l.val) = some l := by decide

theorem argLane_above {w : Word} (h : 15 < w.toNat) : argLane w = none := by
  unfold argLane
  rw [dif_neg]
  omega

theorem argLaneOrNone_laneCode : ∀ l : Option LaneId, argLaneOrNone (BitVec.ofNat 16 (laneCode l)) = some l := by
  intro l
  cases l with
  | none => rfl
  | some l =>
    revert l
    decide

theorem argProfile_ofNat : ∀ k : ProfileId, argProfile (BitVec.ofNat 16 k.val) = some k := by decide

theorem argProfile_above {w : Word} (h : 7 < w.toNat) : argProfile w = none := by
  unfold argProfile
  rw [dif_neg]
  omega

theorem argRamp_ofNat : ∀ r : RampId, argRamp (BitVec.ofNat 16 r.val) = some r := by decide

theorem argRamp_above {w : Word} (h : 3 < w.toNat) : argRamp w = none := by
  unfold argRamp
  rw [dif_neg]
  omega

theorem argPaceForm_code (f : PaceForm) : argPaceForm (BitVec.ofNat 16 f.code) = some f := by cases f <;> rfl

theorem argRange_ofNat {lo hi n : Nat} (h : lo ≤ n) (h2 : n ≤ hi) (h3 : n < 65536) :
    argRange lo hi (BitVec.ofNat 16 n) = some n := by
  unfold argRange
  rw [toNat_ofNat_word h3, if_pos ⟨h, h2⟩]

theorem argPattern_code {k : PatternKind} {a : Word} (b : Word)
    (hk : k = .shift15 → 1 ≤ a.toNat ∧ a.toNat ≤ 32767) :
    argPattern (BitVec.ofNat 16 k.code) a b = some { kind := k, first := a, second := b } := by
  cases k with
  | shift15 =>
    have := hk rfl
    exact if_neg (by omega)
  | constant => rfl
  | alternate => rfl

/-- A lane command with another count of argument words than one (R7 to R13). -/
theorem laneCommand_length {args : List Word} (h : args.length ≠ 1) (rule : LaneId → State → CommandResult) (s : State) :
    laneCommand rule args s = refuse .badLength s := by
  match args with
  | [] => rfl
  | [_] => exact absurd rfl h
  | _ :: _ :: _ => rfl

/-- A 32-bit counter as its two words, high first (R173). -/
theorem words32_eq (c : Counter) :
    words32 c = [BitVec.ofNat 16 (c.toNat / 65536), BitVec.ofNat 16 (c.toNat % 65536)] := by
  unfold words32
  congr 1
  · apply BitVec.eq_of_toNat_eq
    simp [BitVec.extractLsb'_toNat, Nat.shiftRight_eq_div_pow]
  · congr 1
    apply BitVec.eq_of_toNat_eq
    simp [BitVec.extractLsb'_toNat]

/-- Waking the head is offering it again (R140). -/
theorem State.wake_offeredAgain (s : State) (l : LaneId) : s.wake l = { s with intake := s.intake.offeredAgain l } := by
  rw [State.wake_eq]
  congr 1
  unfold IntakePort.headNames IntakePort.offeredAgain
  cases hq : s.intake.queue with
  | nil => simp [hq]
  | cons p r => by_cases h : p.lane = l <;> simp [h, hq]

end Sys2Proof.Machine
end

