-- ==== Sys2Proof/Tests/Slice0.lean ====
section
/-! SUPPORT. Tests: ill-formed commands the checks refuse, one step of every command on a small state, and for every
statement with hypotheses a concrete state and operands that meet them. -/

namespace Sys2Proof.Tests

open Sys2Proof Sys2Proof.Machine

-- Each test is checked before the next is read, so that no test waits in a thread of its own.
set_option Elab.async false

/-! ### Well-formed commands -/

theorem test_wellFormed_refuses_empty_arrival : (Instr.intakeArrival []).wellFormed = false := by decide

theorem test_wellFormed_refuses_undecoded_start :
    (Instr.intakeArrival [.symbolError, .word 3]).wellFormed = false := by decide

theorem test_wellFormed_refuses_empty_return : (Instr.returnArrival []).wellFormed = false := by decide

theorem test_wellFormed_refuses_undecoded_return_start :
    (Instr.returnArrival [.symbolError]).wellFormed = false := by decide

theorem test_wellFormed_refuses_kept_word_518 :
    (Instr.intakeArrival (List.replicate 518 (.word 1))).wellFormed = false := by decide +kernel

theorem test_wellFormed_refuses_early_unkept_word :
    (Instr.returnArrival [.word 1, .unkept 2]).wellFormed = false := by decide +kernel

theorem test_wellFormed_takes_a_long_parcel :
    (Instr.intakeArrival (List.replicate 517 (.word 1) ++ [.unkept 2])).wellFormed = true := by decide +kernel

theorem test_wellFormed_takes_a_parcel : (Instr.intakeArrival [.word 1, .symbolError]).wellFormed = true := by decide

/-! ### Small states -/

/-- The part right after reset with one command at the head of its control queue. -/
def base (code : Word) (args : List Word) : State :=
  { State.reset with control := { ControlUnit.powerOn with queue := [{ tag := 9, payload := code :: args }] } }

/-- Lane 0 replaced. -/
def onLane (ln : Lane) (s : State) : State := { s with lanes := s.lanes.set 0 ln }

/-- A lane at its power-on values in a state, on a route, with an allocation of 1,024 places. -/
def laneIn (st : LaneState) (r : Route) : Lane :=
  { Lane.powerOn with state := st, allocation := 1024, config := { Lane.powerOn.config with route := r } }

/-- The part after a command. -/
def ran (c : Instr) (s : State) : State :=
  match exec c s with
  | .next t => t
  | .fault _ => s
  | .refused _ => s

/-- The outcome and the result words of the last REPLY in the message queue. -/
def reply? (s : State) : Option (OutcomeCode × List Word) :=
  match s.delivery.messages.getLast? with
  | some (.reply _ o _ ws) => some (o, ws)
  | some (.notice _ _) => none
  | none => none

/-- One parcel at the head of the intake queue, and lane 0. -/
def offering (x : InParcel) (ln : Lane) : State :=
  onLane ln { State.reset with intake := { IntakePort.powerOn with queue := [x] } }

/-- The part with both links UP. -/
def linked : State :=
  { State.reset with
    intake := { IntakePort.powerOn with link := .up }
    delivery := { DeliveryPort.powerOn with link := .up } }

/-- A part whose message queue holds one REPLY, being sent. -/
def sending : State :=
  { linked with delivery := { linked.delivery with messages := [.reply 9 .done false []], transmission := .message } }

/-- A part whose sample queue holds one MARK, being sent. -/
def sendingSample : State :=
  { linked with delivery := { linked.delivery with samples := [.mark 0 .cue 5 0 0], transmission := .sample } }

/-- A SAMPLES parcel of lane 0 as it is received. -/
def samplesRx (n : SeqNum) (vs : List Sample) : List RxWord := (parcelWords 1 0 0 n vs).map .word

/-- The words of a received parcel with a header and a payload, check word last. -/
def checked (ws : List Word) : List Word := ws ++ [crc ws]

/-- A mark list of n CUE marks. -/
def cues (n : Nat) : List MarkEntry :=
  List.replicate n { kind := .cue, seq := 7, offset := 0, value := 0, spanPending := false }

/-- A body of three samples. -/
def body : AssemblyBody where
  seq := 5
  count := 3
  route := .restore
  samples := [1, 2, 3]
  repairedSeen := false
  fallbackSeen := false
  flushedSeen := false
  resumed := false

/-- A run of ten positions with both anchors (the example of R83). -/
def run (st : RunState) (growing : Bool) : RunRecord where
  number := 0
  causes := { detected := true, splice := false, junction := false, conceal := false }
  first := 0
  last := 9
  growing := growing
  state := st
  leftAnchor := some (BitVec.ofInt 16 (-2310))
  rightAnchor := some 880
  firstSeq := 5

/-- A held parcel of ten samples at position 0. -/
def tenHeld : HeldParcel where
  seq := 5
  firstPosition := 0
  count := 10
  departed := 0
  route := .restore
  fallback := .hold
  resumed := false
  samples := List.replicate 10 (30000 : Word)

/-! ### One step of every command -/

theorem test_configureLane :
    reply? (ran .configureLane (base 0x10 (15 :: Lane.powerOn.config.words))) = some (.done, []) := by decide +kernel

theorem test_configureLane_range :
    reply? (ran .configureLane (base 0x10 (16 :: Lane.powerOn.config.words))) = some (.badArgument, []) := by
  decide +kernel

theorem test_startLane : reply? (ran .startLane (base 0x11 [15])) = some (.done, [1024, 23552]) := by decide +kernel

theorem test_startLane_range : reply? (ran .startLane (base 0x11 [16])) = some (.badArgument, []) := by decide +kernel

theorem test_stopLane_off : reply? (ran .stopLane (base 0x12 [0])) = some (.laneIdle, []) := by decide +kernel

theorem test_stopLane_running :
    ((ran .stopLane (onLane (laneIn (.running false) .restore) (base 0x12 [0]))).lane 0).state = .off := by
  decide +kernel

theorem test_abortLane :
    (ran .abortLane (onLane (laneIn .stalled .pass) (base 0x13 [0]))).freePlaces = 24576 := by decide +kernel

theorem test_readLane :
    (reply? (ran .readLane (base 0x14 [0]))).map (fun r => (r.1, r.2.length)) = some (.done, 74) := by decide +kernel

theorem test_clearLaneCounters : reply? (ran .clearLaneCounters (base 0x15 [0])) = some (.done, []) := by decide +kernel

theorem test_writeHum :
    ((ran .writeHum (base 0x20 [7, 1, 1023, 5])).profile 7).bankB.entry 1023 = 5 := by decide +kernel

theorem test_writeHum_serving : reply? (ran .writeHum (base 0x20 [7, 0, 0, 5])) = some (.bankBusy, []) := by
  decide +kernel

theorem test_readHum :
    reply? (ran .readHum (base 0x21 [0, 0, 0, 1])) = some (.done, [2, 0, 16, 16, 0, 0, 0, 0]) := by decide +kernel

theorem test_setHum : ((ran .setHum (base 0x22 [0, 1024, 1023, 3])).profile 0).bankB.length = 1024 := by decide +kernel

theorem test_commitHum : reply? (ran .commitHum (base 0x23 [0])) = some (.done, [1]) := by decide +kernel

theorem test_resyncHum : reply? (ran .resyncHum (base 0x24 [0])) = some (.badArgument, []) := by decide +kernel

theorem test_writeRamp :
    ((ran .writeRamp (base 0x30 (3 :: List.replicate 16 (256 : Word)))).ramps[(3 : RampId)]).toList
      = List.replicate 16 256 := by decide +kernel

theorem test_readRamp :
    (reply? (ran .readRamp (base 0x31 [0]))).map (fun r => r.2.getLast?) = some (some 256) := by decide +kernel

theorem test_setPattern : (ran .setPattern (base 0x40 [0, 0, 32767, 9])).generator.next = 32767 := by decide +kernel

theorem test_attachGenerator : (ran .attachGenerator (base 0x41 [15])).generator.lane = some 15 := by decide +kernel

theorem test_attachChecker : (ran .attachChecker (base 0x42 [255])).checker.lane = none := by decide +kernel

theorem test_latchChecker :
    reply? (ran .latchChecker (base 0x43 [])) = some (.done, [0, 255, 255, 0, 0, 0, 0, 0, 0, 0]) := by decide +kernel

theorem test_injectError : reply? (ran .injectError (base 0x44 [1, 0])) = some (.notAttached, []) := by decide +kernel

theorem test_setIntake : (ran .setIntake (base 0x50 [8, 7, 3, 1])).intake.haltLevel = 8 := by decide +kernel

theorem test_resumeIntake : reply? (ran .resumeIntake (base 0x51 [])) = some (.done, [0]) := by decide +kernel

theorem test_readPorts :
    (reply? (ran .readPorts (base 0x52 []))).map (fun r => (r.1, r.2.length)) = some (.done, 84) := by decide +kernel

theorem test_setDelivery : (ran .setDelivery (base 0x53 [2, 255])).delivery.pace = .stop := by decide +kernel

theorem test_flushNotices : reply? (ran .flushNotices (base 0x54 [])) = some (.done, [0, 0]) := by decide +kernel

theorem test_resetPart : (ran .resetPart (base 0x60 [])).control.counters.toList = [0, 0, 0, 0, 1, 0] := by
  decide +kernel

theorem test_badCommand : reply? (ran .badCommand (base 0x16 [])) = some (.badCommand, []) := by decide +kernel

theorem test_resetAssert : (ran .resetAssert linked).intake.link = .down := by decide +kernel

theorem test_powerOnStart : (ran .powerOnStart (ran .resetAssert linked)).resetLine = false := by decide +kernel

theorem test_intakeArrival :
    (ran (.intakeArrival (samplesRx 5 [1, 2])) linked).intake.queue = [.samples 0 5 [1, 2]] := by decide +kernel

theorem test_intakeArrival_damaged :
    (ran (.intakeArrival [.word 0x0100, .symbolError]) linked).intake.counter .damaged = 1 := by decide +kernel

/-- Eight IDLE symbols bring the delivery return pair into step, and the symbols of a PACE parcel, ended by an IDLE, make
one arrival of its words. -/
theorem test_returnSymbols :
    ((List.replicate 8 Symbol.idle ++ parcelSymbols Pace.stop.words ++ [Symbol.idle]).foldl State.returnSymbol State.reset).pending
      = [.deliveryLinkUp, .returnArrival (Pace.stop.words.map .word)] := by decide +kernel

theorem test_deliverySymbols :
    State.reset.deliverySymbols = [.idle] ∧ sending.deliverySymbols = parcelSymbols (parcelWords 4 0 0 9 [0]) := by
  decide +kernel

theorem test_intakeLinkUp : (ran .intakeLinkUp State.reset).intake.sending = some .go := by decide +kernel

theorem test_intakeLinkDown : (ran (.intakeLinkDown true) linked).intake.counter .cut = 1 := by decide +kernel

theorem test_intakePaceEnd :
    (ran .intakePaceEnd (ran .intakeLinkUp State.reset)).intake.lastSent = some .go := by decide +kernel

theorem test_offer :
    (((ran .offer (offering (.samples 0 5 [1, 2]) (laneIn .armed .pass))).lane 0).held.map fun p => p.samples)
      = [[1, 2]]
      ∧ ((ran .offer (offering (.samples 0 5 [1, 2]) Lane.powerOn)).lane 0).counter .unclaimed = 1 := by decide +kernel

theorem test_returnArrival :
    (ran (.returnArrival ((parcelWords 3 0 0 9 [0x11, 0]).map .word)) linked).control.queue
      = [{ tag := 9, payload := [0x11, 0] }] := by decide +kernel

theorem test_deliveryLinkUp : (ran .deliveryLinkUp State.reset).delivery.link = .up := by decide +kernel

theorem test_deliveryLinkDown : (ran (.deliveryLinkDown true) linked).delivery.counter .cut = 1 := by decide +kernel

theorem test_deliveryReadyChange : (ran (.deliveryReadyChange true) linked).deliveryReady = true := by decide +kernel

theorem test_transmissionStart :
    (ran .transmissionStart { sending with delivery := { sending.delivery with transmission := .none } }).delivery.transmission
      = .message := by decide +kernel

theorem test_transmissionEnd : (ran .transmissionEnd sending).delivery.counter .repliesSent = 1 := by decide +kernel

/-- A running lane whose starvation timer has run out. -/
def starved (r : Route) : Lane := { laneIn (.running false) r with timer := { remaining := 0, counting := true } }

theorem test_starvationExpiry :
    ((ran (.starvationExpiry 0) (onLane (starved .restore) State.reset)).lane 0).state = .stalled := by decide +kernel

/-- A batch of one notice whose timer has run out. -/
def batchDue : State :=
  { State.reset with
    delivery :=
      { DeliveryPort.powerOn with
        batch := [noticeOf .laneIdle (some 0) 0 0], timer := { remaining := 0, counting := true } } }

theorem test_batchExpiry : (ran .batchExpiry batchDue).delivery.messages.length = 1 := by decide +kernel

/-- A lane whose ten held samples lie in one run, and the repair unit with that run in its queue or in work. -/
def repairing (inWork : Bool) : State :=
  let e : RepairEntry := { lane := 0, run := 0 }
  { onLane
      { laneIn (.running false) .restore with
        nextPosition := 10
        held := [tenHeld]
        assembly := .complete body [] SampleFlags.none
        det := { Detector.powerOn with runs := [run (if inWork then .repairing else .queued) false] } }
      State.reset with
    repair := { queue := if inWork then [] else [e], inProgress := if inWork then some e else none } }

theorem test_repairTake :
    ((ran .repairTake (repairing false)).lane 0).det.runs.map RunRecord.state = [.repairing] := by decide +kernel

theorem test_repairCompletion :
    (((ran .repairCompletion (repairing true)).lane 0).held.flatMap fun p => p.samples.map BitVec.toInt)
      = [-2020, -1730, -1440, -1150, -860, -570, -280, 10, 300, 590] := by decide +kernel

theorem test_idle_step_ticks :
    (match step { batchDue with delivery := { batchDue.delivery with timer := { remaining := 1, counting := true } } } with
      | .next t => t.pending
      | .fault _ => []
      | .refused _ => []) = [.batchExpiry] := by decide +kernel

theorem test_crc_of_header : crc [0x0600, 0, 0, 1, 1, crc [0x0600, 0, 0, 1, 1]] = 0 := by decide +kernel

/-! ### Witnesses: the hypotheses of the statements can be met -/

/-- The premise of every statement about a take, for any code and arguments. -/
theorem witness_takeReady (code : Word) (args : List Word) : TakeReady (base code args) 9 code args [] :=
  ⟨rfl, Nat.zero_lt_succ 7, rfl⟩

theorem witness_StepTakesTheFrontCommand : ({ State.reset with pending := [.offer] } : State).pending = .offer :: [] := rfl

theorem witness_StepTakesTheFrontCommand_empty :
    State.reset.pending = [] ∧ State.reset.resetLine = false ∧ (ran .resetAssert State.reset).pending = []
      ∧ (ran .resetAssert State.reset).resetLine = true := by decide +kernel

theorem witness_EveryCommandAnswersANextState : Instr.offer ≠ .resetAssert ∧ Instr.offer ≠ .powerOnStart := by decide

theorem witness_ResetLineClearsThePart :
    (ran .resetAssert State.reset).resetLine = true ∧ Instr.offer ≠ .resetAssert ∧ Instr.offer ≠ .powerOnStart
      ∧ (∀ level, Instr.offer ≠ .deliveryReadyChange level) := by decide +kernel

theorem witness_ConfigureLaneReplacesTheRecord :
    TakeReady (base 0x10 []) 9 0x10 [] [] ∧ ([] : List Word).length ≠ 27
      ∧ TakeReady (base 0x10 (16 :: Lane.powerOn.config.words)) 9 0x10 (16 :: Lane.powerOn.config.words) []
      ∧ Lane.powerOn.config.words.length = 26 ∧ 15 < (16 : Word).toNat
      ∧ TakeReady (base 0x10 (15 :: Lane.powerOn.config.words)) 9 0x10
          (BitVec.ofNat 16 (15 : LaneId).val :: Lane.powerOn.config.words) []
      ∧ ConfigInRange Lane.powerOn.config := by decide +kernel

theorem witness_StartLaneTakesItsPlaces :
    TakeReady (base 0x11 []) 9 0x11 [] [] ∧ ([] : List Word).length ≠ 1
      ∧ TakeReady (base 0x11 [16]) 9 0x11 [16] [] ∧ 15 < (16 : Word).toNat
      ∧ TakeReady (base 0x11 [15]) 9 0x11 [BitVec.ofNat 16 (15 : LaneId).val] []
      ∧ 1024 = (if ((base 0x11 [15]).lane 15).config.route ∈ [Route.echo, Route.check] then 0
          else ((base 0x11 [15]).lane 15).config.lookahead + ((base 0x11 [15]).lane 15).config.parcelLimit
            + ((base 0x11 [15]).lane 15).config.slack) := by decide +kernel

theorem witness_StopLaneAtRestOrDraining :
    TakeReady (base 0x12 [0, 0]) 9 0x12 [0, 0] [] ∧ ([0, 0] : List Word).length ≠ 1
      ∧ TakeReady (base 0x12 [16]) 9 0x12 [16] [] ∧ 15 < (16 : Word).toNat
      ∧ TakeReady (base 0x12 [0]) 9 0x12 [BitVec.ofNat 16 (0 : LaneId).val] []
      ∧ ((base 0x12 [0]).lane 0).state = .off
      ∧ (∀ st ∈ [LaneState.armed, .stalled, .draining .armed, .draining .off],
          TakeReady (onLane (laneIn st .pass) (base 0x12 [0])) 9 0x12 [0] []
            ∧ ((onLane (laneIn st .pass) (base 0x12 [0])).lane 0).state = st) := by decide +kernel

theorem witness_StopLaneDrainsARunningLane :
    ∀ p ∈ [false, true],
      TakeReady (onLane (laneIn (.running p) .pass) (base 0x12 [0])) 9 0x12 [BitVec.ofNat 16 (0 : LaneId).val] []
        ∧ ((onLane (laneIn (.running p) .pass) (base 0x12 [0])).lane 0).state = .running p
        ∧ (laneIn (.running p) .pass).held = [] ∧ (laneIn (.running p) .pass).det.runs = []
        ∧ (laneIn (.running p) .pass).assembly = .empty ∧ (laneIn (.running p) .pass).marks = [] := by decide +kernel

theorem witness_AbortLaneDiscardsTheLane :
    TakeReady (base 0x13 []) 9 0x13 [] [] ∧ ([] : List Word).length ≠ 1
      ∧ TakeReady (base 0x13 [16]) 9 0x13 [16] [] ∧ 15 < (16 : Word).toNat
      ∧ TakeReady (base 0x13 [0]) 9 0x13 [BitVec.ofNat 16 (0 : LaneId).val] [] ∧ ((base 0x13 [0]).lane 0).state = .off
      ∧ (∀ st ∈ [LaneState.armed, .running true, .draining .off],
          TakeReady (onLane (laneIn st .pass) (base 0x13 [0])) 9 0x13 [0] []
            ∧ ((onLane (laneIn st .pass) (base 0x13 [0])).lane 0).state ≠ .off) := by decide +kernel

theorem witness_ReadLaneReportsAndCountersAreCleared :
    TakeReady (base 0x14 [0, 0]) 9 0x14 [0, 0] [] ∧ ([0, 0] : List Word).length ≠ 1
      ∧ TakeReady (base 0x14 [16]) 9 0x14 [16] [] ∧ 15 < (16 : Word).toNat
      ∧ TakeReady (base 0x14 [15]) 9 0x14 [BitVec.ofNat 16 (15 : LaneId).val] [] := by decide +kernel

theorem witness_ReadLaneReportsAndCountersAreCleared_clear :
    TakeReady (base 0x15 []) 9 0x15 [] [] ∧ ([] : List Word).length ≠ 1
      ∧ TakeReady (base 0x15 [16]) 9 0x15 [16] [] ∧ 15 < (16 : Word).toNat
      ∧ TakeReady (base 0x15 [15]) 9 0x15 [BitVec.ofNat 16 (15 : LaneId).val] [] := by decide +kernel

theorem witness_BanksAndTablesAreWrittenAndRead :
    TakeReady (base 0x20 [0, 0, 0]) 9 0x20 [0, 0, 0] [] ∧ ([0, 0, 0] : List Word).length < 4
      ∧ TakeReady (base 0x20 [0, 0, 1023, 1, 1]) 9 0x20 [0, 0, 1023, 1, 1] [] ∧ ([1, 1] : List Word) ≠ []
      ∧ 1024 < (1023 : Word).toNat + ([1, 1] : List Word).length
      ∧ TakeReady (base 0x20 [7, 0, 1023, 1]) 9 0x20 [BitVec.ofNat 16 (7 : ProfileId).val, 0, BitVec.ofNat 16 1023, 1] []
      ∧ 1023 < 1024 ∧ 1023 + ([1] : List Word).length ≤ 1024
      ∧ ((base 0x20 [7, 0, 1023, 1]).profile 7).serving = .a
      ∧ TakeReady (base 0x20 [7, 1, 1023, 1]) 9 0x20 [BitVec.ofNat 16 (7 : ProfileId).val, 1, BitVec.ofNat 16 1023, 1] []
      ∧ ((base 0x20 [7, 1, 1023, 1]).profile 7).swapPending = false
      ∧ ((base 0x20 [7, 1, 1023, 1]).profile 7).serving ≠ .b
      ∧ (((base 0x20 [7, 1, 1023, 1]).profile 7).bank .b).wf = true := by decide +kernel

theorem witness_BanksAndTablesAreWrittenAndRead_read :
    TakeReady (base 0x21 []) 9 0x21 [] [] ∧ ([] : List Word).length ≠ 4
      ∧ TakeReady (base 0x21 [0, 0, 0, 250]) 9 0x21 [0, 0, 0, 250] [] ∧ 249 < (250 : Word).toNat
      ∧ TakeReady (base 0x21 [7, 1, 775, 249]) 9 0x21
          [BitVec.ofNat 16 (7 : ProfileId).val, 1, BitVec.ofNat 16 775, BitVec.ofNat 16 249] []
      ∧ 775 < 1024 ∧ 249 ≤ 249 ∧ 775 + 249 ≤ 1024 := by decide +kernel

theorem witness_HumProfileIsSetCommittedAndResynced :
    TakeReady (base 0x22 []) 9 0x22 [] [] ∧ ([] : List Word).length ≠ 4
      ∧ TakeReady (base 0x22 [0, 15, 0, 0]) 9 0x22 [0, 15, 0, 0] [] ∧ 1 ≤ (15 : Word).toNat ∧ (15 : Word).toNat ≤ 15
      ∧ TakeReady (base 0x22 [0, 16, 1023, 3]) 9 0x22
          [BitVec.ofNat 16 (0 : ProfileId).val, BitVec.ofNat 16 16, BitVec.ofNat 16 1023,
            BitVec.ofNat 16 ResyncSource.reelStart.code] []
      ∧ 16 ≤ 16 ∧ 16 ≤ 1024 ∧ 1023 < 1024
      ∧ TakeReady (base 0x22 [0, 0, 0, 0]) 9 0x22
          [BitVec.ofNat 16 (0 : ProfileId).val, BitVec.ofNat 16 0, BitVec.ofNat 16 0,
            BitVec.ofNat 16 ResyncSource.none.code] [] := by decide +kernel

theorem witness_HumProfileIsSetCommittedAndResynced_commit :
    (TakeReady (base 0x23 []) 9 0x23 [] [] ∧ ([] : List Word).length ≠ 1
      ∧ TakeReady (base 0x23 [8]) 9 0x23 [8] [] ∧ 7 < (8 : Word).toNat
      ∧ TakeReady (base 0x23 [7]) 9 0x23 [BitVec.ofNat 16 (7 : ProfileId).val] [])
    ∧ TakeReady (base 0x24 []) 9 0x24 [] [] ∧ ([] : List Word).length ≠ 1
      ∧ TakeReady (base 0x24 [8]) 9 0x24 [8] [] ∧ 7 < (8 : Word).toNat
      ∧ TakeReady (base 0x24 [7]) 9 0x24 [BitVec.ofNat 16 (7 : ProfileId).val] [] := by decide +kernel

/-- Sixteen gains, the largest a gain can be. -/
def fullGains : Vector Nat 16 := Vector.replicate 16 256

theorem witness_BanksAndTablesAreWrittenAndRead_ramp :
    TakeReady (base 0x30 []) 9 0x30 [] [] ∧ ([] : List Word).length ≠ 17
      ∧ TakeReady (base 0x30 (3 :: List.replicate 16 257)) 9 0x30 (3 :: List.replicate 16 257) []
      ∧ (List.replicate 16 (257 : Word)).length = 16 ∧ (∃ g ∈ List.replicate 16 (257 : Word), 256 < g.toNat)
      ∧ TakeReady (base 0x30 (3 :: List.replicate 16 256)) 9 0x30
          (BitVec.ofNat 16 (3 : RampId).val :: fullGains.toList.map (BitVec.ofNat 16)) []
      ∧ (∀ x ∈ fullGains.toList, x ≤ 256)
      ∧ TakeReady (base 0x31 []) 9 0x31 [] [] ∧ ([] : List Word).length ≠ 1
      ∧ TakeReady (base 0x31 [4]) 9 0x31 [4] [] ∧ 3 < (4 : Word).toNat
      ∧ TakeReady (base 0x31 [3]) 9 0x31 [BitVec.ofNat 16 (3 : RampId).val] [] :=
  ⟨witness_takeReady _ _, by decide, witness_takeReady _ _, by decide, ⟨257, by decide, by decide⟩, witness_takeReady _ _,
    by decide, witness_takeReady _ _, by decide, witness_takeReady _ _, by decide, witness_takeReady _ _⟩

theorem witness_SetPatternSetsAUnit :
    TakeReady (base 0x40 []) 9 0x40 [] [] ∧ ([] : List Word).length ≠ 4
      ∧ TakeReady (base 0x40 [0, 0, 32768, 0]) 9 0x40 [0, 0, 32768, 0] [] ∧ 32767 < (32768 : Word).toNat
      ∧ (∀ u : Word, TakeReady (base 0x40 [u, 0, 32767, 0]) 9 0x40
          [u, BitVec.ofNat 16 PatternKind.shift15.code, 32767, 0] [])
      ∧ 1 ≤ (32767 : Word).toNat ∧ (32767 : Word).toNat ≤ 32767 :=
  ⟨witness_takeReady _ _, by decide, witness_takeReady _ _, by decide, fun _ => witness_takeReady _ _, by decide, by decide⟩

theorem witness_GeneratorIsAttachedAndMadeToErr :
    TakeReady (base 0x41 []) 9 0x41 [] [] ∧ ([] : List Word).length ≠ 1
      ∧ TakeReady (base 0x41 [16]) 9 0x41 [16] [] ∧ 15 < (16 : Word).toNat ∧ (16 : Word).toNat ≠ 255
      ∧ TakeReady (base 0x41 [15]) 9 0x41 [BitVec.ofNat 16 (laneCode (some 15))] []
      ∧ TakeReady (base 0x41 [255]) 9 0x41 [BitVec.ofNat 16 (laneCode none)] [] := by decide +kernel

theorem witness_CheckerIsAttachedAndLatched :
    TakeReady (base 0x42 []) 9 0x42 [] [] ∧ ([] : List Word).length ≠ 1
      ∧ TakeReady (base 0x42 [254]) 9 0x42 [254] [] ∧ 15 < (254 : Word).toNat ∧ (254 : Word).toNat ≠ 255
      ∧ TakeReady (base 0x42 [15]) 9 0x42 [BitVec.ofNat 16 (laneCode (some 15))] []
      ∧ TakeReady (base 0x42 [255]) 9 0x42 [BitVec.ofNat 16 (laneCode none)] [] := by decide +kernel

theorem witness_CheckerIsAttachedAndLatched_latch :
    TakeReady (base 0x43 [0]) 9 0x43 [0] [] ∧ ([0] : List Word) ≠ [] ∧ TakeReady (base 0x43 []) 9 0x43 [] [] := by
  decide +kernel

theorem witness_GeneratorIsAttachedAndMadeToErr_inject :
    TakeReady (base 0x44 []) 9 0x44 [] [] ∧ ([] : List Word).length ≠ 2
      ∧ TakeReady (base 0x44 [2, 1]) 9 0x44 [2, 1] [] := by decide +kernel

theorem witness_IntakeIsSetAndResumed :
    TakeReady (base 0x50 []) 9 0x50 [] [] ∧ ([] : List Word).length ≠ 4
      ∧ TakeReady (base 0x50 [8, 8, 1, 0]) 9 0x50 [8, 8, 1, 0] [] ∧ (8 : Word).toNat ≤ (8 : Word).toNat
      ∧ TakeReady (base 0x50 [48, 47, 3, 1]) 9 0x50
          [BitVec.ofNat 16 48, BitVec.ofNat 16 47, BitVec.ofNat 16 PaceForm.both.code, if true then 1 else 0] []
      ∧ 8 ≤ 48 ∧ 48 ≤ 48 ∧ 47 < 48 := by decide +kernel

/-- The part HALTED, with RESUME_INTAKE at the head of its control queue. -/
def haltedTake : State := { base 0x51 [] with intake := { IntakePort.powerOn with port := .halted, drops := 3 } }

theorem witness_IntakeIsSetAndResumed_resume :
    TakeReady (base 0x51 [0]) 9 0x51 [0] [] ∧ ([0] : List Word) ≠ []
      ∧ TakeReady (base 0x51 []) 9 0x51 [] [] ∧ (base 0x51 []).intake.port = .accepting
      ∧ TakeReady haltedTake 9 0x51 [] [] ∧ haltedTake.intake.port = .halted := by decide +kernel

theorem witness_ReadPortsReportsTheSharedState :
    TakeReady (base 0x52 [0]) 9 0x52 [0] [] ∧ ([0] : List Word) ≠ [] ∧ TakeReady (base 0x52 []) 9 0x52 [] []
      ∧ ∃ two : Counter → List Nat, ∀ c, two c = [c.toNat / 65536, c.toNat % 65536] :=
  ⟨witness_takeReady _ _, by decide, witness_takeReady _ _, fun c => [c.toNat / 65536, c.toNat % 65536], fun _ => rfl⟩

theorem witness_DeliveryIsSetAndNoticesAreFlushed :
    TakeReady (base 0x53 []) 9 0x53 [] [] ∧ ([] : List Word).length ≠ 2
      ∧ TakeReady (base 0x53 [1, 256]) 9 0x53 [1, 256] [] ∧ 255 < (256 : Word).toNat
      ∧ TakeReady (base 0x53 [3, 255]) 9 0x53 [BitVec.ofNat 16 PaceForm.both.code, BitVec.ofNat 16 255] []
      ∧ 1 ≤ 255 ∧ 255 ≤ 255 := by decide +kernel

theorem witness_DeliveryIsSetAndNoticesAreFlushed_flush :
    TakeReady (base 0x54 [0]) 9 0x54 [0] [] ∧ ([0] : List Word) ≠ [] ∧ TakeReady (base 0x54 []) 9 0x54 [] [] := by
  decide +kernel

theorem witness_ResetPartClearsTheWork :
    TakeReady (base 0x60 [0]) 9 0x60 [0] [] ∧ ([0] : List Word) ≠ [] ∧ TakeReady (base 0x60 []) 9 0x60 [] []
      ∧ (base 0x60 []).intake.haltLevel ≠ 0 := by decide +kernel

theorem witness_UnknownCommandIsRefused :
    (base 0x61 []).resetLine = false ∧ (base 0x61 []).delivery.messages.length < 8
      ∧ (base 0x61 []).control.queue = { tag := 9, payload := [0x61] } :: []
      ∧ (0x61 : Word) ∉ ([0x10, 0x11, 0x12, 0x13, 0x14, 0x15, 0x20, 0x21, 0x22, 0x23, 0x24, 0x30, 0x31, 0x40, 0x41,
        0x42, 0x43, 0x44, 0x50, 0x51, 0x52, 0x53, 0x54, 0x60] : List Word) := by decide +kernel

theorem witness_ArrivingParcelsAreTested :
    linked.resetLine = false ∧ linked.intake.link = .up ∧ linked.intake.port = .accepting
      ∧ isParcel [.word 1, .symbolError] = true ∧ RxWord.symbolError ∈ [RxWord.word 1, .symbolError]
      ∧ isParcel (receivedAs [1]) = true ∧ crc [1] ≠ 0
      ∧ crc (checked [0x0700, 0, 0, 0]) = 0 ∧ 6 < ((checked [0x0700, 0, 0, 0]).getD 0 0).toNat / 256
      ∧ crc (checked [0x0600, 0, 0, 0]) = 0 ∧ ((checked [0x0600, 0, 0, 0]).getD 0 0).toNat / 256 = 6
      ∧ crc (checked [0x0200, 0, 0, 2, 1, 1]) = 0 ∧ ((checked [0x0200, 0, 0, 2, 1, 1]).getD 0 0).toNat / 256 = 2
      ∧ ((checked [0x0200, 0, 0, 2, 1, 1]).getD 3 0).toNat ≠ 3
      ∧ crc (checked [0x0100, 0, 0, 0]) = 0 ∧ (checked [0x0100, 0, 0, 0]).length = 5
      ∧ crc (checked [0x0110, 0, 0, 1, 1]) = 0 ∧ (checked [0x0110, 0, 0, 1, 1]).length = 5 + 1
      ∧ 15 < ((checked [0x0110, 0, 0, 1, 1]).getD 0 0).toNat % 256
      ∧ crc (checked [0x0200, 0, 0, 3, 6, 0, 0]) = 0 ∧ (checked [0x0200, 0, 0, 3, 6, 0, 0]).length = 5 + 3
      ∧ 5 < ((checked [0x0200, 0, 0, 3, 6, 0, 0]).getD 4 0).toNat := by decide +kernel

/-- Words of 0 leave a register of 0. -/
theorem crc_zeros (n : Nat) : (List.replicate n (0 : Word)).foldl crcWord 0 = 0 := by
  induction n with
  | zero => rfl
  | succ n ih =>
    have h : crcWord 0 0 = 0 := by decide +kernel
    rw [List.replicate_succ, List.foldl_cons, h, ih]

/-- A parcel of n payload words whose first payload word brings the register to 0, and whose others are 0. -/
def zeroed (header : List Word) (n : Nat) : List Word := checked header ++ List.replicate n 0

theorem crc_zeroed {header : List Word} (h : crc (checked header) = 0) (n : Nat) : crc (zeroed header n) = 0 := by
  rw [zeroed, crc, List.foldl_append]
  change (List.replicate n (0 : Word)).foldl crcWord (crc (checked header)) = 0
  rw [h, crc_zeros]

theorem length_zeroed (a b c d : Word) (n : Nat) : (zeroed [a, b, c, d] n).length = 5 + n := by
  rw [zeroed, List.length_append, List.length_replicate]
  rfl

/-- A SAMPLES parcel of 513 samples whose check word agrees fails test 4 (R174). -/
theorem test_intakeArrival_long : intakeVerdict (receivedAs (zeroed [0x0100, 0, 0, 513] 513)) = .damaged 3 := by
  unfold intakeVerdict
  rw [checkRegister_receivedAs, crc_zeroed (by decide +kernel), keptWords_receivedAs, length_receivedAs, length_zeroed]
  decide +kernel

/-- SAMPLES parcels of 512 and of 513 samples, 517 and 518 words long. -/
theorem witness_ArrivingParcelsAreTested_long :
    crc (zeroed [0x0110, 0, 0, 512] 512) = 0 ∧ (zeroed [0x0110, 0, 0, 512] 512).length = 5 + 512
      ∧ (zeroed [0x0110, 0, 0, 512] 512).length ≤ 517
      ∧ crc (zeroed [0x0100, 0, 0, 513] 513) = 0 ∧ (zeroed [0x0100, 0, 0, 513] 513).length = 5 + 513
      ∧ 517 < (zeroed [0x0100, 0, 0, 513] 513).length := by
  refine ⟨crc_zeroed (by decide +kernel) _, ?_, ?_, crc_zeroed (by decide +kernel) _, ?_, ?_⟩ <;> rw [length_zeroed]
  decide

theorem witness_ArrivingParcelsAreTested_halted :
    { linked with intake := { linked.intake with port := .halted } }.intake.port = .halted := rfl

theorem witness_WellFormedParcelsAreAdmittedOrDropped :
    linked.resetLine = false ∧ linked.intake.link = .up ∧ isParcel (samplesRx 5 [1]) = true
      ∧ linked.intake.port = .accepting ∧ intakeVerdict (samplesRx 5 [1]) = .good (.samples 0 5 [1])
      ∧ linked.intake.queue.length < 48
      ∧ 48 ≤ { linked.intake with queue := List.replicate 48 (.samples 0 5 [1]) }.queue.length := by decide +kernel

theorem witness_LinkPaceAndReadyEvents :
    State.reset.resetLine = false ∧ State.reset.intake.link = .down ∧ linked.intake.link = .up
      ∧ (ran .intakeLinkUp State.reset).intake.sending = some .go
      ∧ ∃ start : IntakePort → IntakePort, ∀ p : IntakePort, start p =
          { p with
            sending :=
              if p.sending = none ∧ p.form ≠ .byLine ∧ p.link = .up ∧ p.lastSent ≠ some p.pace then some p.pace
              else p.sending } :=
  ⟨rfl, rfl, rfl, by decide +kernel, _, fun _ => rfl⟩

theorem witness_OfferedSamplesAreDiscardedOrWait :
    (∀ st ∈ [LaneState.off, .armed, .running false, .running true, .stalled, .draining .off, .draining .armed],
        OfferReady (offering (.samples 0 5 [1]) (laneIn st .restore)) (.samples 0 5 [1]) []
          ∧ ((offering (.samples 0 5 [1]) (laneIn st .restore)).lane 0).state = st)
      ∧ { Lane.powerOn.config with startOption := .atReelStart }.startOption = .atReelStart
      ∧ { Lane.powerOn.config with parcelLimit := 511 }.parcelLimit < (List.replicate 512 (1 : Word)).length
      ∧ (laneIn .stalled .echo).config.route = .echo ∧ 32 ≤ (List.replicate 32 (OutParcel.mark 0 .cue 1 0 0)).length
      ∧ (laneIn (.running false) .echo).inOrder 5
      ∧ ¬({ laneIn (.running false) .pass with expected := some (5 + 8388608) }).inOrder 5
      ∧ ({ laneIn (.running false) .pass with held := [tenHeld], allocation := 10 }).allocation
          < (([tenHeld] : List HeldParcel).map fun p => p.samples.length).sum + ([1] : List Word).length := by
  refine ⟨by decide +kernel, rfl, by decide +kernel, rfl, by decide +kernel, ?_, ?_, by decide +kernel⟩
  · intro e h
    exact absurd h (by rintro ⟨⟩)
  · intro h
    exact absurd (h _ rfl) (by decide)

/-- Lane 0 expects the parcel it is offered. -/
def expecting (r : Route) : Lane := { laneIn (.running false) r with expected := some 4 }

theorem inOrder_expecting (r : Route) : (expecting r).inOrder 5 := by
  intro e h
  have : e = 4 := (Option.some.inj h).symm
  subst this
  decide

theorem witness_EchoAndCheckLanesTakeParcels :
    (∀ r ∈ [Route.echo, .check],
        OfferReady (offering (.samples 0 5 [1]) (expecting r)) (.samples 0 5 [1]) []
          ∧ ((offering (.samples 0 5 [1]) (expecting r)).lane 0).state = .running false
          ∧ ([1] : List Word).length ≤ ((offering (.samples 0 5 [1]) (expecting r)).lane 0).config.parcelLimit
          ∧ ((offering (.samples 0 5 [1]) (expecting r)).lane 0).config.route = r)
      ∧ (∀ r, (expecting r).inOrder 5) ∧ State.reset.delivery.samples.length < 32 ∧ State.reset.checker.lane ≠ some 0
      ∧ { Checker.powerOn with lane := some 0 }.lane = some (0 : LaneId) :=
  ⟨by decide +kernel, inOrder_expecting, by decide, by decide, rfl⟩

theorem witness_HeldParcelsEnterTheirLane :
    OfferReady (offering (.samples 0 5 [1]) (expecting .restore)) (.samples 0 5 [1]) [] ∧ ([1] : List Word) ≠ []
      ∧ (expecting .restore).state = .running false ∧ (expecting .restore).config.route ≠ .echo
      ∧ (expecting .restore).config.route ≠ .check ∧ ([1] : List Word).length ≤ (expecting .restore).config.parcelLimit
      ∧ (expecting .restore).inOrder 5 ∧ 1 = (expecting .restore).gapBefore 5
      ∧ ((expecting .restore).held.map fun p => p.samples.length).sum + ([1] : List Word).length
          ≤ (expecting .restore).allocation :=
  ⟨by decide +kernel, by decide, rfl, by decide, by decide, by decide, inOrder_expecting _, by decide, by decide⟩

theorem witness_HeldParcelsEnterTheirLane_plain :
    OfferReady (offering (.samples 0 5 [1]) (expecting .pass)) (.samples 0 5 [1]) []
      ∧ (expecting .pass).state = .running false ∧ (expecting .pass).config.route ∈ [Route.pass, Route.mute, Route.generate]
      ∧ ([1] : List Word) ≠ [] ∧ ([1] : List Word).length ≤ (expecting .pass).config.parcelLimit
      ∧ ([1] : List Word).length ≤ (expecting .pass).config.lookahead
      ∧ ([1] : List Word).length ≤ (expecting .pass).allocation
      ∧ (expecting .pass).inOrder 5 ∧ 1 = (expecting .pass).gapBefore 5
      ∧ (expecting .pass).held = [] ∧ (expecting .pass).det.runs = [] ∧ (expecting .pass).marks = []
      ∧ (expecting .pass).hum.profile = none ∧ (expecting .pass).config.watchEnable = false :=
  ⟨by decide +kernel, rfl, by decide, by decide, by decide, by decide, by decide, inOrder_expecting _, by decide, rfl, rfl,
    rfl, rfl, rfl⟩

theorem witness_SamplesStartOrResumeALane :
    (∀ st ∈ [LaneState.armed, .stalled], ∀ r ∈ [Route.restore, .pass, .mute, .generate, .echo, .check],
        OfferReady (offering (.samples 0 5 [1]) (laneIn st r)) (.samples 0 5 [1]) []
          ∧ ((offering (.samples 0 5 [1]) (laneIn st r)).lane 0).state = st
          ∧ ((offering (.samples 0 5 [1]) (laneIn st r)).lane 0).config.route = r)
      ∧ (laneIn .armed .restore).config.startOption = .atNextParcel ∧ ([1] : List Word) ≠ []
      ∧ ([1] : List Word).length ≤ (laneIn .stalled .restore).config.parcelLimit
      ∧ State.reset.delivery.samples.length < 32 := by decide +kernel

theorem witness_EntryIsMadeStepByStep :
    (∀ r ∈ [Route.restore, .pass, .mute, .generate],
        OfferReady (offering (.samples 0 5 [1]) (expecting r)) (.samples 0 5 [1]) []
          ∧ (offering (.samples 0 5 [1]) (expecting r)).lane 0 = expecting r
          ∧ ([1] : List Word).length ≤ (expecting r).config.parcelLimit
          ∧ (expecting r).state = .running false ∧ 1 = (expecting r).gapBefore 5 ∧ (expecting r).config.route = r
          ∧ ((expecting r).held.map fun p => p.samples.length).sum + ([1] : List Word).length ≤ (expecting r).allocation)
      ∧ (∀ r, (expecting r).inOrder 5)
      ∧ (∀ st ∈ [LaneState.armed, .stalled], ∀ r ∈ [Route.restore, .pass, .mute, .generate],
        OfferReady (offering (.samples 0 5 [1]) (laneIn st r)) (.samples 0 5 [1]) []
          ∧ (offering (.samples 0 5 [1]) (laneIn st r)).lane 0 = laneIn st r ∧ (laneIn st r).state = st
          ∧ (laneIn st r).config.startOption = .atNextParcel ∧ (laneIn st r).config.route = r) :=
  ⟨by decide +kernel, inOrder_expecting, by decide +kernel⟩

/-- Lane 0 on a route with its level watch on for peaks of 2000 and more, its hits concealed, and a SPLICE mark of the
parcel before the one it is offered. -/
def watching (r : Route) : Lane :=
  { laneIn (.running false) r with
    expected := some 5
    config :=
      { Lane.powerOn.config with
        route := r, watchEnable := true, watchLimitA := 2000, watchLimitB := 32768, watchAction := .conceal }
    marks := [{ kind := .splice, seq := 4, offset := 0, value := 0, spanPending := true }] }

/-- The hit is counted and its LEVEL notice comes before that of the late mark; the RESTORE parcel is a CONCEAL run, and a
PASS parcel is not. -/
theorem test_offer_level_watch :
    let parcel : InParcel := .samples 0 5 [2500, 3]
    let t := ran .offer (offering parcel (watching .restore))
    let u := ran .offer (offering parcel (watching .pass))
    t.delivery.batch.map Notice.kind = [.level, .spliceLate] ∧ u.delivery.batch.map Notice.kind = [.level, .spliceLate]
      ∧ (t.lane 0).counter .levelHits = 1 ∧ (t.lane 0).counter .lateSplices = 1
      ∧ (t.lane 0).det.runs.map (fun r => (r.first, r.last, r.causes.conceal, r.causes.detected))
          = [(0, 1, true, false)]
      ∧ (u.lane 0).det.runs = [] := by decide +kernel

/-- Profile 0 with a swap pending. -/
def swapWaits : State :=
  { State.reset with profiles := State.reset.profiles.set 0 { HumProfile.powerOn with swapPending := true } }

theorem witness_HumIsCancelledAtEntry :
    (∃ withHum : LaneHum → State, ∀ x, withHum x =
        { swapWaits with lanes := swapWaits.lanes.set (0 : LaneId) { swapWaits.lane 0 with hum := x } })
      ∧ (swapWaits.profile 0).swapPending = true ∧ (swapWaits.profile 1).swapPending = false
      ∧ (swapWaits.lane 0).hum.profile ≠ some 1 ∧ ({ profile := some 1, index := 15, restart := true } : LaneHum).profile = some 1
      ∧ ((swapWaits.profile 1).bank .a).wf = true ∧ 15 < ((swapWaits.profile 1).bank .a).length :=
  ⟨⟨_, fun _ => rfl⟩, by decide, by decide, by decide, rfl, by decide +kernel, by decide +kernel⟩

/-- Lane 0 holding five parcels of eight samples in all its 40 places, the first ten positions in a QUEUED run. -/
def fullLane : Lane :=
  { laneIn (.running false) .restore with
    config := { Lane.powerOn.config with lookahead := 32, parcelLimit := 8, slack := 0 }
    allocation := 40
    expected := some 10
    nextPosition := 40
    held := (List.range 5).map fun i =>
      { tenHeld with seq := BitVec.ofNat 24 (5 + i), firstPosition := 8 * i, count := 8, samples := List.replicate 8 7 }
    det := { Detector.powerOn with runs := [run .queued false] } }

/-- Lane 0 so, and a parcel for it at the head of the intake queue. -/
def deadlineDue : State :=
  { offering (.samples 0 10 [1]) fullLane with repair := { queue := [{ lane := 0, run := 0 }], inProgress := none } }

theorem witness_DeadlineGivesUpTheHeadRun :
    OfferReady deadlineDue (.samples 0 10 [1]) [] ∧ deadlineDue.lane 0 = fullLane
      ∧ fullLane.state = .running false ∧ fullLane.config.route ≠ .echo ∧ fullLane.config.route ≠ .check
      ∧ ([1] : List Word).length ≤ fullLane.config.parcelLimit
      ∧ fullLane.allocation < (fullLane.held.map fun p => p.samples.length).sum + ([1] : List Word).length
      ∧ (∃ p ps, fullLane.held = p :: ps ∧ 0 = p.firstPosition + p.departed)
      ∧ fullLane.config.lookahead ≤ fullLane.nextPosition - 1 - 0
      ∧ run .queued false ∈ fullLane.det.runs ∧ (run .queued false).first ≤ 0 ∧ 0 ≤ (run .queued false).last
      ∧ (run .queued false).state = .queued
      ∧ (∀ q ∈ fullLane.det.runs, q.first ≤ 0 → 0 ≤ q.last → q = run .queued false) :=
  ⟨by decide +kernel, rfl, rfl, by decide, by decide, by decide, by decide +kernel, ⟨_, _, rfl, rfl⟩, by decide, by decide,
    by decide, by decide, rfl, by decide⟩

theorem witness_DeadlineGivesUpTheHeadRun_inOrder :
    fullLane.inOrder 10 ∧ ∀ b ms f, fullLane.assembly ≠ .complete b ms f := by
  refine ⟨fun e h => ?_, fun _ _ _ h => by cases h⟩
  have : e = 10 := (Option.some.inj h).symm
  subst this
  decide

/-- The full lane with a COMPLETE assembly in the way, and the full lane with its QUEUED run behind the head: neither has a
deadline, and each makes the parcel wait. -/
def fullWaits (complete : Bool) : Lane :=
  if complete then { fullLane with assembly := .complete body [] SampleFlags.none }
  else { fullLane with det := { Detector.powerOn with runs := [{ run .queued false with first := 1 }] } }

theorem witness_OfferedSamplesAreDiscardedOrWait_full :
    (∀ complete ∈ [true, false],
        OfferReady (offering (.samples 0 10 [1]) (fullWaits complete)) (.samples 0 10 [1]) []
          ∧ (offering (.samples 0 10 [1]) (fullWaits complete)).lane 0 = fullWaits complete
          ∧ (fullWaits complete).state = .running false ∧ (fullWaits complete).expected = some 10
          ∧ ([1] : List Word).length ≤ (fullWaits complete).config.parcelLimit
          ∧ (fullWaits complete).config.route = .restore
          ∧ (fullWaits complete).allocation
              < ((fullWaits complete).held.map fun p => p.samples.length).sum + ([1] : List Word).length)
      ∧ (fullWaits true).assembly = .complete body [] SampleFlags.none
      ∧ (∀ r ∈ (fullWaits false).det.runs, r.first ≤ 0 → 0 ≤ r.last → r.state ≠ .queued ∧ r.state ≠ .repairing) := by
  decide +kernel

theorem witness_OfferedMarksAreAnswered :
    (∀ st ∈ [LaneState.off, .armed, .running false, .running true, .stalled, .draining .off, .draining .armed],
        ∀ k ∈ [MarkKind.reelEnd, .splice, .speed, .cue, .reelStart],
          OfferReady (offering (.mark 0 k 5 511 0) (laneIn st .restore)) (.mark 0 k 5 511 0) []
            ∧ ((offering (.mark 0 k 5 511 0) (laneIn st .restore)).lane 0).state = st)
      ∧ 8 ≤ (cues 8).length ∧ (cues 7).length < 8
      ∧ ¬({ laneIn (.running false) .restore with expected := some (5 + 8388608) }).inOrder 5
      ∧ 32 ≤ (List.replicate 32 (OutParcel.mark 0 .cue 1 0 0)).length ∧ State.reset.delivery.samples.length < 32
      ∧ (laneIn (.running false) .check).config.route = .check
      ∧ ∃ forwarded : Lane → State, ∀ x : Lane, forwarded x =
          (let t : State := State.headActedOn (offering (.mark 0 .cue 5 511 0) (laneIn .stalled .restore)) 0 x [] .taken;
            { t with delivery := { t.delivery with samples := t.delivery.samples ++ [.mark 0 .cue 5 511 0] } }) := by
  refine ⟨by decide +kernel, by decide, by decide, ?_, by decide, by decide, rfl, _, fun _ => rfl⟩
  intro h
  exact absurd (h _ rfl) (by decide)

theorem witness_ReelStartStartsAnArmedLane :
    OfferReady (offering (.mark 0 .reelStart 5 0 0) (laneIn .armed .generate)) (.mark 0 .reelStart 5 0 0) []
      ∧ (laneIn .armed .generate).state = .armed ∧ (laneIn .armed .generate).config.route ≠ .echo
      ∧ (laneIn .armed .generate).config.route ≠ .check ∧ (laneIn .armed .generate).marks.length < 8 := by decide +kernel

/-- An ARMED lane with a full mark list, and an ARMED lane on route ECHO or CHECK, with a place in the sample queue and
without one. -/
theorem witness_ReelStartStartsAnArmedLane_otherRoutes :
    (∀ r ∈ [Route.echo, .check],
        OfferReady (offering (.mark 0 .reelStart 5 0 0) (laneIn .armed r)) (.mark 0 .reelStart 5 0 0) []
          ∧ ((offering (.mark 0 .reelStart 5 0 0) (laneIn .armed r)).lane 0).state = .armed
          ∧ ((offering (.mark 0 .reelStart 5 0 0) (laneIn .armed r)).lane 0).config.route = r)
      ∧ 31 < 32 ∧ 32 ≤ (List.replicate 32 (OutParcel.mark 0 .cue 1 0 0)).length
      ∧ OfferReady
          (offering (.mark 0 .reelStart 5 0 0) { laneIn .armed .restore with marks := cues 8 })
          (.mark 0 .reelStart 5 0 0) []
      ∧ 8 ≤ ({ laneIn .armed .restore with marks := cues 8 } : Lane).marks.length := by decide +kernel

theorem witness_ReelMarksActOnARunningLane :
    (∀ k ∈ [MarkKind.reelStart, .reelEnd], ∀ r ∈ [Route.restore, .pass, .mute, .generate, .echo, .check],
        OfferReady (offering (.mark 0 k 5 0 0) (laneIn (.running false) r)) (.mark 0 k 5 0 0) []
          ∧ ((offering (.mark 0 k 5 0 0) (laneIn (.running false) r)).lane 0).state = .running false
          ∧ ((offering (.mark 0 k 5 0 0) (laneIn (.running false) r)).lane 0).config.route = r)
      ∧ (cues 7).length < 8 ∧ 8 ≤ (cues 8).length
      ∧ (laneIn (.running false) .echo).held = [] ∧ (laneIn (.running false) .echo).det.runs = []
      ∧ (laneIn (.running false) .echo).assembly = .empty ∧ (laneIn (.running false) .echo).marks = []
      ∧ State.reset.delivery.samples.length < 32 := by decide +kernel

theorem witness_ReturnParcelsAreTested :
    linked.resetLine = false ∧ linked.delivery.link = .up
      ∧ isParcel [.word 1, .symbolError] = true ∧ RxWord.symbolError ∈ [RxWord.word 1, .symbolError]
      ∧ isParcel (receivedAs [1]) = true ∧ crc [1] ≠ 0
      ∧ crc (checked [0x0700, 0, 0, 0]) = 0 ∧ 6 < ((checked [0x0700, 0, 0, 0]).getD 0 0).toNat / 256
      ∧ crc (checked [0x0100, 0, 0, 0]) = 0 ∧ ((checked [0x0100, 0, 0, 0]).getD 0 0).toNat / 256 = 1
      ∧ crc (checked [0x0300, 0, 0, 1]) = 0 ∧ ((checked [0x0300, 0, 0, 1]).getD 0 0).toNat / 256 = 3
      ∧ (checked [0x0300, 0, 0, 1]).length ≠ 5 + 1
      ∧ crc (checked [0x0600, 0, 0, 1, 2]) = 0 ∧ (checked [0x0600, 0, 0, 1, 2]).length = 6
      ∧ 1 < ((checked [0x0600, 0, 0, 1, 2]).getD 4 0).toNat
      ∧ crc (checked [0x0600, 0, 0, 1, 1]) = 0 ∧ (checked [0x0600, 0, 0, 1, 1]).length = 6
      ∧ ((checked [0x0600, 0, 0, 1, 1]).getD 4 0).toNat = Pace.go.code
      ∧ crc (checked [0x0300, 0, 9, 0]) = 0 ∧ (checked [0x0300, 0, 9, 0]).length = 5 + 0 ∧ 0 ≤ 257 := by decide +kernel

/-- CONTROL parcels of 257 and of 258 payload words, and one of 518 words. -/
theorem witness_ReturnParcelsAreTested_long :
    crc (zeroed [0x0300, 0, 9, 257] 257) = 0 ∧ (zeroed [0x0300, 0, 9, 257] 257).length = 5 + 257 ∧ 257 ≤ 257
      ∧ crc (zeroed [0x0300, 0, 9, 258] 258) = 0 ∧ (zeroed [0x0300, 0, 9, 258] 258).length = 5 + 258 ∧ 257 < 258
      ∧ crc (zeroed [0x0300, 0, 9, 513] 513) = 0 ∧ 517 < (zeroed [0x0300, 0, 9, 513] 513).length := by
  refine ⟨crc_zeroed (by decide +kernel) _, ?_, by decide, crc_zeroed (by decide +kernel) _, ?_, by decide,
    crc_zeroed (by decide +kernel) _, ?_⟩ <;> rw [length_zeroed]
  decide

theorem witness_LinkPaceAndReadyEvents_delivery :
    State.reset.resetLine = false ∧ State.reset.delivery.link = .down ∧ linked.resetLine = false
      ∧ linked.delivery.link = .up := by decide

theorem witness_TransmissionsStartAndFreeAPlace_start :
    linked.resetLine = false ∧ linked.delivery.link = .up ∧ linked.delivery.transmission = .none
      ∧ sending.delivery.messages ≠ [] ∧ linked.delivery.messages = [] ∧ sendingSample.delivery.samples ≠ []
      ∧ sendingSample.delivery.pace = .go ∧ { linked.delivery with pace := .stop }.pace = .stop := by decide

/-- The part with a sample parcel in transmission and lane 0 waiting for a place with a leading mark. -/
def served : State :=
  { onLane { laneIn (.running false) .restore with assembly := .complete body (cues 1) SampleFlags.none } sendingSample with
    waitList := [0] }

theorem witness_TransmissionsStartAndFreeAPlace :
    sending.resetLine = false ∧ sending.delivery.transmission = .message
      ∧ sending.delivery.messages = .reply 9 .done false [] :: []
      ∧ sendingSample.resetLine = false ∧ sendingSample.delivery.transmission = .sample
      ∧ sendingSample.delivery.samples = .mark 0 .cue 5 0 0 :: [] ∧ ([] : List OutParcel).length < 32
      ∧ sendingSample.waitList = []
      ∧ served.resetLine = false ∧ served.delivery.transmission = .sample ∧ served.waitList = 0 :: []
      ∧ (served.lane 0).assembly
          = .complete body ({ kind := .cue, seq := 7, offset := 0, value := 0, spanPending := false } :: [])
              SampleFlags.none
      ∧ { laneIn (.running false) .restore with assembly := .complete body [] SampleFlags.none }.state.isFlushing
          = false := by decide +kernel

/-- A flushing lane with nothing held and n trailing marks. -/
def trailing (st : LaneState) (n : Nat) : Lane := { laneIn st .restore with marks := cues n }

theorem witness_TrailingMarksLeaveAndLanesSettle :
    (laneIn (.running false) .restore).state.isFlushing = false ∧ [tenHeld] ≠ []
      ∧ Assembly.complete body [] SampleFlags.none ≠ .empty ∧ (trailing (.running true) 0).marks = []
      ∧ (∀ st ∈ [LaneState.running true, .draining .off, .draining .armed],
          (trailing st 1).state.isFlushing = true ∧ (trailing st 1).held = [] ∧ (trailing st 1).assembly = .empty
            ∧ (trailing st 1).marks
              = { kind := .cue, seq := 7, offset := 0, value := 0, spanPending := false } :: []
            ∧ (trailing st 0).marks = [] ∧ (trailing st 0).held = [] ∧ (trailing st 0).assembly = .empty)
      ∧ State.reset.delivery.samples.length < 32 ∧ 32 ≤ (List.replicate 32 (OutParcel.mark 0 .cue 1 0 0)).length := by
  decide +kernel

/-- The part with a sample parcel in transmission and lane 0, flushing, waiting for a place with n trailing marks. -/
def servedLast (a : Assembly) (n : Nat) : State :=
  { onLane { trailing (.running true) n with assembly := a } sendingSample with waitList := [0] }

theorem witness_TrailingMarksLeaveAndLanesSettle_served :
    (∀ n ∈ [1, 2], ∀ a ∈ [Assembly.empty, .complete body [] SampleFlags.none],
        (servedLast a n).resetLine = false ∧ (servedLast a n).delivery.transmission = .sample
          ∧ (servedLast a n).delivery.samples = .mark 0 .cue 5 0 0 :: [] ∧ ([] : List OutParcel).length < 32
          ∧ (servedLast a n).waitList = 0 :: [] ∧ ((servedLast a n).lane 0).state.isFlushing = true
          ∧ ((servedLast a n).lane 0).held = [] ∧ ((servedLast a n).lane 0).assembly = a
          ∧ ((servedLast a n).lane 0).marks
            = { kind := .cue, seq := 7, offset := 0, value := 0, spanPending := false } :: cues (n - 1))
      ∧ cues (1 - 1) = [] ∧ cues (2 - 1) ≠ [] := by decide +kernel

/-- Served with its last trailing mark, the lane leaves the wait list and is STALLED. -/
theorem test_trailing_mark_served :
    let t := ran .transmissionEnd (servedLast .empty 1)
    (t.lane 0).state = .stalled ∧ t.waitList = [] ∧ t.delivery.samples = [.mark 0 .cue 7 0 0] := by decide +kernel

theorem witness_NoticesJoinTheBatchAndAreCommitted :
    State.reset.delivery.replyReserved = false ∧ State.reset.inTake.delivery.replyReserved = true
      ∧ State.reset.delivery.batch.length < 7
      ∧ (List.replicate 7 (noticeOf .level none 0 0)).length = 7 ∧ 8 ≤ (List.replicate 8 (noticeOf .level none 0 0)).length
      ∧ batchDue.resetLine = false ∧ batchDue.delivery.timer = { remaining := 0, counting := true }
      ∧ batchDue.delivery.replyReserved = false := by decide

theorem witness_StarvedLaneStalls :
    (onLane (starved .restore) State.reset).resetLine = false
      ∧ (onLane (starved .restore) State.reset).lane 0 = starved .restore
      ∧ (starved .restore).state = .running false ∧ (starved .restore).timer = { remaining := 0, counting := true }
      ∧ (starved .restore).held = [] ∧ (starved .restore).det.runs = [] ∧ (starved .restore).assembly = .empty
      ∧ (starved .restore).marks = [] := by decide +kernel

theorem witness_RepairsAreTakenAndCompleted :
    (repairing false).resetLine = false ∧ (repairing false).repair.inProgress = none
      ∧ (repairing false).repair.queue = { lane := 0, run := 0 } :: []
      ∧ (repairing true).resetLine = false ∧ (repairing true).repair.inProgress = some { lane := 0, run := 0 }
      ∧ (((repairing true).lane 0).det.runs.find? fun q => decide (q.number = 0)) = some (run .repairing false)
      ∧ (run .repairing false).leftAnchor = some (BitVec.ofInt 16 (-2310))
      ∧ (run .repairing false).rightAnchor = some 880 ∧ (run .repairing false).first ≤ (run .repairing false).last
      ∧ ((repairing true).lane 0).assembly = .complete body [] SampleFlags.none
      ∧ ((repairing true).lane 0).held = tenHeld :: [] ∧ ((repairing true).lane 0).state.isFlushing = false
      ∧ ((repairing true).lane 0).nextPosition - 1 - (tenHeld.firstPosition + tenHeld.departed)
          < ((repairing true).lane 0).config.lookahead
      ∧ State.reset.repair.queue = [] := by decide +kernel

theorem witness_RepairsAreTakenAndCompleted_values : 1 ≤ 10 ∧ 10 ≤ 10 := by decide

/-- The statement's equations name what they define; its other hypotheses are met by a lane whose head sample lies in a
repaired run, and by one whose run has departed. -/
theorem witness_SamplesDepartInOrder :
    ((repairing true).lane 0).held = tenHeld :: [] ∧ tenHeld.samples = (30000 : Word) :: List.replicate 9 (30000 : Word)
      ∧ 0 = tenHeld.firstPosition + tenHeld.departed ∧ (∀ p ∈ ((repairing true).lane 0).held, p.samples ≠ [])
      ∧ ((run .repaired false).growing = false ∧ (run .repaired false).last < 10)
      ∧ (run (.unrepaired .late) false).state = .unrepaired .late
      ∧ (∀ r ∈ fullLane.det.runs, r.growing = true ∨ 0 ≤ r.last) := by decide +kernel

/-- The statement's hypotheses are equations that name what they define; at the two ends of the marks' range, a mark half
the sequence range behind a parcel goes ahead of it, and one more is later. -/
theorem witness_AssemblyCompletesAndIsPlaced :
    ((8388607 : SeqNum) - 0).toNat < 8388608 ∧ 8388608 ≤ ((8388608 : SeqNum) - 0).toNat
      ∧ (∃ room, room = 32 - State.reset.delivery.samples.length)
      ∧ (∃ parts : List OutParcel, parts = [.samples 0 SampleFlags.none body.seq body.samples] ∧ parts.length ≤ 32) :=
  ⟨by decide, by decide, ⟨_, rfl⟩, ⟨_, rfl, by decide⟩⟩

theorem witness_PairsCarryParcelsOrIdle :
    State.reset.resetLine = false ∧ (ran .resetAssert State.reset).resetLine = true
      ∧ State.reset.delivery.transmission = .none
      ∧ (∃ w ws, sending.delivery.transmission = .message
          ∧ sending.delivery.messages = .reply 9 .done false [] :: []
          ∧ (Message.reply 9 .done false []).words = w :: ws)
      ∧ (∃ w ws, sendingSample.delivery.transmission = .sample
          ∧ sendingSample.delivery.samples = .mark 0 .cue 5 0 0 :: [] ∧ (OutParcel.mark 0 .cue 5 0 0).words = w :: ws)
      ∧ State.reset.intake.sending = none
      ∧ (∃ w ws, (ran .intakeLinkUp State.reset).intake.sending = some .go ∧ Pace.go.words = w :: ws)
      ∧ { Receiver.powerOn with inStep := true, errorRun := 3 }.inStep = true ∧ 3 + 1 = 4 ∧ 2 + 1 ≠ 4
      ∧ { Receiver.powerOn with parcel := some [.word 1] }.parcel = some [.word 1]
      ∧ Receiver.powerOn.parcel = none
      ∧ Receiver.powerOn.inStep = false ∧ 7 + 1 = 8 ∧ 6 + 1 ≠ 8 ∧ Symbol.error ≠ .idle :=
  ⟨rfl, rfl, rfl, ⟨_, _, rfl, rfl, rfl⟩, ⟨_, _, rfl, rfl, rfl⟩, rfl, ⟨_, _, by decide +kernel, rfl⟩, rfl, rfl, by decide, rfl,
    rfl, rfl, rfl, by decide, by decide⟩

/-- A lane with its detector in the given state, on hold-line position 10. -/
def detecting (d : Detector) : State :=
  onLane { laneIn (.running false) .restore with nextPosition := 10, held := [tenHeld], det := d } State.reset

/-- A detector with a calm history of two samples of value 0. -/
def calmHistory : Detector := { Detector.powerOn with valid := 2 }

theorem witness_DetectorClassifiesASample :
    calmHistory.forcedRemainder = 0 ∧ (detecting calmHistory).lane 0 = { (detecting calmHistory).lane 0 with det := calmHistory }
      ∧ calmHistory.openRun? = none ∧ ((2048 : Sample).toInt - (2 * calmHistory.h1.toInt - calmHistory.h2.toInt)).natAbs ≤ 2048
      ∧ calmHistory.runs = [] ∧ 2048 < ((2049 : Sample).toInt - (2 * calmHistory.h1.toInt - calmHistory.h2.toInt)).natAbs
      ∧ (0 : Nat) < 64 ∧ 0 ∉ (detecting calmHistory).usedRuns
      ∧ (run .opened true).growing = true ∧ (run .opened true).first ≤ ((detecting calmHistory).lane 0).nextPosition
      ∧ ((detecting calmHistory).lane 0).headPosition ≤ (run .opened true).last ∧ (run .opened true).state = .opened
      ∧ (run .opened true).last - (run .opened true).first + 1 ≤ Lane.powerOn.config.repairLimit
      ∧ (run .opened true).leftAnchor ≠ none ∧ State.reset.repair.queue.length < 16 := by decide +kernel

/-- The part with all 64 records of the run table in use, in lane 1. -/
def tableFull : State :=
  { State.reset with
    lanes := State.reset.lanes.set 1
      { laneIn (.running false) .restore with
        det :=
          { Detector.powerOn with
            runs := (List.range 64).map fun n => { run .repaired false with number := n, first := 20 * n, last := 20 * n } } } }

theorem witness_DetectorClassifiesASample_tableFull :
    (∀ r < 64, r ∈ tableFull.usedRuns) ∧ (tableFull.lane 0).det.runs = [] := by decide +kernel

/-- The detector's calm history after the run given, n calm samples into its close. -/
def after (r : RunRecord) (n : Nat) : Detector :=
  { calmHistory with runs := [r], calmCount := n, calmStart := if n = 0 then none else some 0 }

/-- Each close of an open run, each merge, and a forced sample: the hypotheses that tell them apart. -/
theorem witness_DetectorJoinsMergesAndCloses :
    (∀ d, ∃ withDet : Detector → State, ∀ e,
        withDet e = (detecting d).withLane 0 { (detecting d).lane 0 with det := e })
      ∧ (after (run .opened true) 11).runs.getLast?.filter (fun r => r.growing) = some (run .opened true)
      ∧ 11 + 1 < 16 ∧ 16 ≤ 15 + 1
      ∧ (after (run .queued false) 0).runs.getLast?.filter (fun r => r.growing) = none
      ∧ (after (run .queued false) 0).runs.getLast? = some (run .queued false) ∧ 10 ≤ (run .queued false).last + 16 + 0
      ∧ (run (.unrepaired .late) false).state.isUnrepaired = true ∧ (run (.unrepaired .late) false).growing = false
      ∧ (run .repaired false).state ≠ .queued ∧ (run .repaired false).state.isUnrepaired = false
      ∧ 0 < { calmHistory with forcedRemainder := 1 }.forcedRemainder := by
  refine ⟨fun _ => ⟨_, fun _ => rfl⟩, ?_⟩
  decide

/-- A forced sample behind a QUEUED run merges into it: the run is OPEN again and its repair entry is gone. -/
theorem test_detect_merges :
    let s : State :=
      { detecting { after (run .queued false) 0 with forcedRemainder := 1 } with
        repair := { queue := [{ lane := 0, run := 0 }], inProgress := none } }
    let t := s.detect 0 Lane.powerOn.config 5 [] 0
    (t.lane 0).det.runs.map (fun r => (r.state, r.growing, r.last)) = [(.opened, true, 10)] ∧ t.repair.queue = [] := by
  decide +kernel

/-- A run with no left anchor closes UNREPAIRED NO_ANCHOR, and one before a full repair queue UNREPAIRED QUEUE_FULL. -/
theorem test_detect_closes :
    let calm := Lane.powerOn.config.quietCount - 1
    let full : State :=
      { detecting (after (run .opened true) calm) with
        repair := { queue := List.replicate 16 { lane := 1, run := 1 }, inProgress := none } }
    (((detecting (after { run .opened true with leftAnchor := none } calm)).detect 0 Lane.powerOn.config 5 [] 0).lane
        0).det.runs.map RunRecord.state = [.unrepaired .noAnchor]
      ∧ ((full.detect 0 Lane.powerOn.config 5 [] 0).lane 0).det.runs.map RunRecord.state = [.unrepaired .queueFull] := by
  decide +kernel

theorem witness_GateFollowsItsTableAndScalesDown :
    300 ≤ 600 ∧ 299 ≤ 600 ∧ 299 < 300 ∧ 300 ≤ 300 ∧ 600 < 601 ∧ 256 ≤ 256 := by decide

theorem witness_PatternStepsAndAlterations :
    1 ≤ (32767 : Word).toNat ∧ (32767 : Word).toNat ≤ 32767 ∧ shiftStep 8192 = 16385 ∧ shiftStep 16385 = 3 := by decide

theorem witness_CheckerTakesAWord :
    ({ Checker.powerOn with state := .search }).state = .search
      ∧ ({ Checker.powerOn with state := .verify 5 23 }).state = .verify 5 23
      ∧ ({ Checker.powerOn with state := .verify 5 22 }).state = .verify 5 22 ∧ 22 ≠ 23
      ∧ ({ Checker.powerOn with state := .locked 5 (List.replicate 48 .matched) }).state
          = .locked 5 (List.replicate 48 .matched)
      ∧ (List.replicate 48 CheckResult.matched).length ≤ 48 ∧ ([] : List CheckResult).length ≤ 48 := by decide

/-- A LOCKED checker one word from both limits, with three mismatches among its results. -/
def lockedAtLimit : State :=
  { State.reset with
    checker :=
      { Checker.powerOn with
        lane := some 0, state := .locked 5 (List.replicate 3 .mismatched), wordCount := 4294967294
        errorCount := 16777214 } }

/-- The fourth mismatch reaches both limits and loses lock: two CHECK_SATURATED notices, then CHECK_LOST (R125, R126). -/
theorem test_checker_at_limit :
    (lockedAtLimit.checkerWord 7 6).delivery.batch.map (fun n => (n.kind, n.detail, n.seq))
        = [(.checkSaturated, 1, 0), (.checkSaturated, 2, 0), (.checkLost, 0, 7)]
      ∧ (lockedAtLimit.checkerWord 7 6).checker.wordSaturated = true
      ∧ (lockedAtLimit.checkerWord 7 6).checker.errorSaturated = true := by decide +kernel

theorem witness_ParcelsReadBackAsWritten :
    255 ≤ 255 ∧ 1 ≤ (List.replicate 512 (1 : Word)).length ∧ (List.replicate 512 (1 : Word)).length ≤ 512 ∧ 511 ≤ 511
      ∧ (List.replicate 257 (1 : Word)).length ≤ 257 := by decide +kernel

theorem witness_StepsKeepQueueAndBatchLaws :
    (QueuesInBounds State.reset ∧ BatchLaw State.reset) ∧ step State.reset = .next State.reset.tick :=
  ⟨by decide +kernel, rfl⟩

theorem witness_StepsKeepPaceLaws : IntakePaceLaw State.reset ∧ DeliveryPaceLaw State.reset := by decide +kernel

theorem witness_StepsKeepTheCheckerLaw :
    CheckerLaw State.reset.checker ∧ State.reset.checker.state = .search := by decide +kernel

/-- The law of R115 on a checker in VERIFY, its lane RUNNING on route CHECK. -/
theorem witness_CheckerBusyLaw :
    CheckerBusyLaw
      { onLane (laneIn (.running false) .check) State.reset with
        checker := { Checker.powerOn with lane := some 0, state := .verify 5 23 } } :=
  fun _ => ⟨0, by decide +kernel⟩

theorem witness_StepsKeepTheHumLaws :
    (∀ k : ProfileId, (State.reset.profile k).bankA.wf = true ∧ (State.reset.profile k).swapPending = false)
      ∧ ∀ l : LaneId, (State.reset.lane l).hum.profile = none := by decide +kernel

theorem witness_StepsKeepHoldMemoryInBounds :
    ConfigInRange (State.reset.lane 0).config ∧ (State.reset.lanes.toList.map Lane.allocation).sum ≤ 24576 := by
  decide +kernel

/-- The premise of the step lemmas on the lanes' work, right after reset and on a lane full of held samples. -/
theorem witness_StepsKeepTheHoldLineLaws : WorkLaws State.reset ∧ WorkLaws deadlineDue :=
  ⟨⟨by decide +kernel, by decide +kernel, by decide +kernel, by decide +kernel, by decide +kernel, by decide +kernel,
    by decide +kernel⟩,
    ⟨by decide +kernel, by decide +kernel, by decide +kernel, by decide +kernel, by decide +kernel, by decide +kernel,
    by decide +kernel⟩⟩

/-- The further premises of the step lemma on parcels, on the same lane. -/
theorem witness_StepsKeepTheParcelLaw : WorkLaws deadlineDue ∧ BatchLaw deadlineDue ∧ ParcelLaw deadlineDue :=
  ⟨witness_StepsKeepTheHoldLineLaws.2, by decide +kernel, by decide +kernel, by decide +kernel, by decide +kernel,
    by decide +kernel⟩

theorem witness_StepsKeepPortTimerAndGateLaws :
    TransmissionLaw sending ∧ IntakeParcelLaw deadlineDue ∧ GateLaw State.reset
      ∧ ∀ l : LaneId, TimerLaw (State.reset.lane l) := by decide +kernel

end Sys2Proof.Tests
end

section
/-! The lane commands START_LANE, READ_LANE and CLEAR_LANE_COUNTERS (R7, R12, R13). What the rules read of the part is
the same before the take and after its beginning, so each rule's effect is said once, over any state. -/

namespace Sys2Proof.Machine

/-! ### The operand of a lane command -/

theorem laneCommand_above {w : Word} (h : 15 < w.toNat) (rule : LaneId → State → CommandResult) (s : State) :
    laneCommand rule [w] s = refuse .badArgument s := by
  simp only [laneCommand, argLane_above h]

theorem laneCommand_lane (l : LaneId) (rule : LaneId → State → CommandResult) (s : State) :
    laneCommand rule [BitVec.ofNat 16 l.val] s = rule l s := by
  simp only [laneCommand, argLane_ofNat]

/-- The two tests that every lane command makes of its argument words, and the take they refuse (R7, R9, R11 to R13). -/
theorem takeCommand_laneTests {s : State} {tag code : Word} {args : List Word} {rest : List ControlParcel}
    (h : TakeReady s tag code args rest) (rule : LaneId → State → CommandResult) :
    (args.length ≠ 1 → takeCommand code (laneCommand rule) s = .next (s.denied tag rest .badLength))
      ∧ ∀ w : Word, args = [w] → 15 < w.toNat →
          takeCommand code (laneCommand rule) s = .next (s.denied tag rest .badArgument) := by
  constructor
  · intro hlen
    exact takeCommand_denied h (laneCommand_length hlen rule _)
  · rintro w rfl hw
    exact takeCommand_denied h (laneCommand_above hw rule _)

/-! ### The commands' takes -/

theorem exec_startLane (s : State) : exec .startLane s = takeCommand 0x11 (laneCommand startLane) s := rfl

theorem exec_readLane (s : State) : exec .readLane s = takeCommand 0x14 (laneCommand readLane) s := rfl

theorem exec_clearLaneCounters (s : State) :
    exec .clearLaneCounters s = takeCommand 0x15 (laneCommand clearLaneCounters) s := rfl

/-! ### START_LANE -/

/-- The allocation C by the route: nothing on ECHO and CHECK, D + P + S on every other route (R2). -/
theorem LaneConfig.allocation_eq (c : LaneConfig) :
    c.allocation =
      if c.route ∈ [Route.echo, Route.check] then 0 else c.lookahead + c.parcelLimit + c.slack := by
  unfold LaneConfig.allocation
  cases c.route <;> rfl

theorem State.lacksUnit_iff (s : State) (l : LaneId) :
    s.lacksUnit l = true ↔
      ((s.lane l).config.route = .generate ∧ s.generator.lane ≠ some l)
        ∨ ((s.lane l).config.route = .check ∧ s.checker.lane ≠ some l) := by
  unfold State.lacksUnit
  cases (s.lane l).config.route <;> simp

/-- An OFF lane is armed: its entry takes its places, forgets its expectation and stops its timer, and a waiting head of
the lane is offered again (R7, R140). -/
theorem State.armLane_of_off {s : State} {l : LaneId} (h : (s.lane l).state = .off) :
    s.armLane l =
      { s with
        lanes := s.lanes.set l
          { s.lane l with
            state := .armed
            allocation := (s.lane l).config.allocation
            expected := none
            timer := (s.lane l).timer.stop }
        intake := s.intake.offeredAgain l } := by
  have outside : (s.lane l).state.isRunning = false ∨ LaneState.armed.isRunning = true := .inl (by rw [h]; rfl)
  unfold State.armLane
  rw [State.changeState_staying _ _ _ outside, State.wake_offeredAgain]
  simp [State.modLane, State.lane, Timer.stop]

theorem startLane_of_active {s : State} {l : LaneId} (h : (s.lane l).state ≠ .off) :
    startLane l s = refuse .laneActive s := if_pos h

theorem startLane_of_lacksUnit {s : State} {l : LaneId} (hoff : (s.lane l).state = .off) (hu : s.lacksUnit l = true) :
    startLane l s = refuse .notAttached s := by
  simp only [startLane, hoff, hu, ne_eq, not_true_eq_false, if_false, if_true]

theorem startLane_of_noSpace {s : State} {l : LaneId} (hoff : (s.lane l).state = .off) (hu : s.lacksUnit l = false)
    (hs : s.freePlaces < (s.lane l).config.allocation) : startLane l s = refuse .noSpace s := by
  simp only [startLane, hoff, hu, hs, ne_eq, not_true_eq_false, Bool.false_eq_true, if_false, if_true]

theorem startLane_of_room {s : State} {l : LaneId} (hoff : (s.lane l).state = .off) (hu : s.lacksUnit l = false)
    (hs : ¬ s.freePlaces < (s.lane l).config.allocation) :
    startLane l s =
      doneWith [natWord (s.lane l).config.allocation, natWord (s.armLane l).freePlaces] (s.armLane l) := by
  simp only [startLane, hoff, hu, hs, ne_eq, not_true_eq_false, Bool.false_eq_true, if_false]

/-- Settles O5: each test of R7 is a branch of the rule, and the branch that passes them all arms an OFF lane. -/
theorem startLaneTakesItsPlaces : Obligations.StartLaneTakesItsPlaces := by
  intro s tag args rest h
  simp only [exec_startLane]
  obtain ⟨badLength, badArgument⟩ := takeCommand_laneTests h startLane
  refine ⟨badLength, badArgument, ?_⟩
  rintro l need rfl hneed
  rw [← LaneConfig.allocation_eq] at hneed
  subst hneed
  have rule := laneCommand_lane l startLane (s.beginTake rest)
  split
  case isTrue active => exact takeCommand_denied h (rule.trans (startLane_of_active active))
  case isFalse active =>
    have off : ((s.beginTake rest).lane l).state = .off := not_not.1 active
    have lacks := (s.beginTake rest).lacksUnit_iff l
    split
    case isTrue lacking => exact takeCommand_denied h (rule.trans (startLane_of_lacksUnit off (lacks.2 lacking)))
    case isFalse lacking =>
      have attached : (s.beginTake rest).lacksUnit l = false := Bool.eq_false_of_not_eq_true (mt lacks.1 lacking)
      split
      case isTrue full => exact takeCommand_denied h (rule.trans (startLane_of_noSpace off attached full))
      case isFalse full =>
        have armed := rule.trans (startLane_of_room off attached full)
        rw [State.armLane_of_off off] at armed
        exact takeCommand_done h armed

/-! ### READ_LANE: the values of the result words -/

theorem boolWord_eq (b : Bool) : boolWord b = BitVec.ofNat 16 b.toNat := by cases b <;> rfl

theorem expectedWords_some (e : SeqNum) :
    expectedWords (some e) = [BitVec.ofNat 16 (e.toNat / 65536), BitVec.ofNat 16 (e.toNat % 65536)] := by
  have low : e.extractLsb' 0 16 = BitVec.ofNat 16 (e.toNat % 65536) := by
    apply BitVec.eq_of_toNat_eq
    simp [BitVec.extractLsb'_toNat]
  simp only [expectedWords, natWord, low]

/-- A position, held unwrapped, is reported as the high and the low word of its low 32 bits (R1, R181; log 5). -/
theorem words32_ofNat (n : Nat) :
    words32 (BitVec.ofNat 32 n) = [BitVec.ofNat 16 (n / 65536), BitVec.ofNat 16 (n % 65536)] := by
  have high : BitVec.ofNat 16 (n % 2 ^ 32 / 65536) = BitVec.ofNat 16 (n / 65536) := by
    apply BitVec.eq_of_toNat_eq
    simp only [BitVec.toNat_ofNat]
    omega
  have low : n % 2 ^ 32 % 65536 = n % 65536 := by omega
  rw [words32_eq, BitVec.toNat_ofNat, high, low]

theorem flatMap_words32 (cs : List Counter) :
    cs.flatMap words32 =
      (cs.flatMap fun c => [c.toNat / 65536, c.toNat % 65536]).map (BitVec.ofNat 16) := by
  rw [List.map_flatMap]
  exact congrArg cs.flatMap (funext words32_eq)

/-- Settles O9: the words of READ_LANE are, part by part, the words of the values R181 lists, and each command's rule
changes no more than the claim says. -/
theorem readLaneReportsAndCountersAreCleared : Obligations.ReadLaneReportsAndCountersAreCleared := by
  constructor
  case left =>
    intro s tag args rest h
    simp only [exec_readLane]
    obtain ⟨badLength, badArgument⟩ := takeCommand_laneTests h readLane
    refine ⟨badLength, badArgument, ?_⟩
    rintro l ln rfl rfl
    have read : takeCommand 0x14 (laneCommand readLane) s = .next (s.done tag rest (s.lane l).readWords) :=
      takeCommand_done h (laneCommand_lane l readLane (s.beginTake rest))
    refine read.trans (congrArg (fun ws => Host.Outcome.next (s.done tag rest ws)) ?_)
    simp only [Lane.readWords, LaneConfig.words, Lane.occupancy, natWord, boolWord_eq, words32_ofNat, flatMap_words32,
      List.map_append, List.map_cons, List.map_nil]
    cases (s.lane l).expected with
    | none => rfl
    | some e =>
      rw [expectedWords_some]
      rfl
  case right =>
    intro s tag args rest h
    simp only [exec_clearLaneCounters]
    obtain ⟨badLength, badArgument⟩ := takeCommand_laneTests h clearLaneCounters
    refine ⟨badLength, badArgument, ?_⟩
    rintro l rfl
    exact takeCommand_done h (laneCommand_lane l clearLaneCounters _)

end Sys2Proof.Machine
end

section
/-! The banks and the gain tables: WRITE_HUM, READ_HUM, WRITE_RAMP and READ_RAMP (R32, R33, R111, R112). Each rule's
tests and effects are said once, over any state; the claim takes them to the state before the take. -/

namespace Sys2Proof.Machine

/-! ### The operands of the two bank commands -/

theorem argBank_above {w : Word} (h : 1 < w.toNat) : argBank w = none := by
  unfold argBank
  split
  case h_1 zero => omega
  case h_2 one => omega
  case h_3 => rfl

theorem argBank_word (which : BankId) : argBank (if which = .a then 0 else 1) = some which := by
  cases which <;> rfl

/-- Once the profile number and the bank number read back, test 2 of R32 and R33 can only fail on the run. -/
theorem run_outside_of_operands {p b : Word} {k : ProfileId} {which : BankId} {run : Prop}
    (h : 7 < p.toNat ∨ 1 < b.toNat ∨ run) (profile : argProfile p = some k) (bank : argBank b = some which) : run := by
  obtain above | above | outside := h
  · rw [argProfile_above above] at profile
    contradiction
  · rw [argBank_above above] at bank
    contradiction
  · exact outside

/-! ### Ownership -/

theorem HumProfile.ownership_loading_iff (p : HumProfile) (which : BankId) :
    p.ownership which = .loading ↔ p.swapPending = false ∧ p.serving ≠ which := by
  unfold HumProfile.ownership
  by_cases serving : which = p.serving
  · simp [serving]
  · cases p.swapPending <;> simp [serving, Ne.symm serving]

theorem HumProfile.ownership_code (p : HumProfile) (which : BankId) :
    (p.ownership which).code = if p.serving = which then 2 else if p.swapPending = true then 1 else 0 := by
  unfold HumProfile.ownership
  by_cases serving : which = p.serving
  · rw [if_pos serving, if_pos serving.symm]
    rfl
  · rw [if_neg serving, if_neg (Ne.symm serving)]
    cases p.swapPending <;> rfl

/-! ### WRITE_HUM -/

theorem exec_writeHum (s : State) : exec .writeHum s = takeCommand 0x20 writeHum s := rfl

theorem writeHum_length {args : List Word} (h : args.length < 4) (s : State) :
    writeHum args s = refuse .badLength s := by
  match args with
  | [] | [_] | [_, _] | [_, _, _] => rfl
  | _ :: _ :: _ :: _ :: _ =>
    simp only [List.length_cons] at h
    omega

theorem writeHum_badArgument {p b i : Word} {vs : List Word} (hvs : vs ≠ [])
    (h : 7 < p.toNat ∨ 1 < b.toNat ∨ 1023 < i.toNat ∨ 1024 < i.toNat + vs.length) (s : State) :
    writeHum (p :: b :: i :: vs) s = refuse .badArgument s := by
  obtain ⟨v, vs, rfl⟩ := List.exists_cons_of_ne_nil hvs
  unfold writeHum
  dsimp only
  split
  case h_1 k which profile bank => exact if_pos (run_outside_of_operands h profile bank)
  case h_2 => rfl

/-- Operands that pass test 2 leave the test of the bank's ownership; the bank that passes it is written (R32). -/
theorem writeHum_run (k : ProfileId) (which : BankId) {i : Nat} {vs : List Word} (hvs : vs ≠ []) (hi : i < 1024)
    (hrun : i + vs.length ≤ 1024) (s : State) :
    writeHum (BitVec.ofNat 16 k.val :: (if which = .a then 0 else 1) :: BitVec.ofNat 16 i :: vs) s =
      if (s.profile k).ownership which ≠ .loading then refuse .bankBusy s
      else doneWith [] (s.modProfile k fun p => p.setBank which ((p.bank which).write i vs)) := by
  obtain ⟨v, vs, rfl⟩ := List.exists_cons_of_ne_nil hvs
  have inRange : ¬(1023 < i ∨ Config.bankEntries < i + (v :: vs).length) := not_or.2 ⟨by omega, Nat.not_lt.2 hrun⟩
  have index : (BitVec.ofNat 16 i).toNat = i := toNat_ofNat_word (by omega)
  simp only [writeHum, argProfile_ofNat, argBank_word, index, if_neg inRange]

theorem writeHum_busy {k : ProfileId} {which : BankId} {i : Nat} {vs : List Word} (hvs : vs ≠ []) (hi : i < 1024)
    (hrun : i + vs.length ≤ 1024) {s : State}
    (hbusy : (s.profile k).swapPending = true ∨ (s.profile k).serving = which) :
    writeHum (BitVec.ofNat 16 k.val :: (if which = .a then 0 else 1) :: BitVec.ofNat 16 i :: vs) s =
      refuse .bankBusy s := by
  have notLoading : (s.profile k).ownership which ≠ .loading := by
    rw [Ne, HumProfile.ownership_loading_iff, not_and_or, Bool.not_eq_false, not_not]
    exact hbusy
  rw [writeHum_run k which hvs hi hrun, if_pos notLoading]

theorem writeHum_loading {k : ProfileId} {which : BankId} {i : Nat} {vs : List Word} (hvs : vs ≠ []) (hi : i < 1024)
    (hrun : i + vs.length ≤ 1024) {s : State} (hswap : (s.profile k).swapPending = false)
    (hserving : (s.profile k).serving ≠ which) :
    writeHum (BitVec.ofNat 16 k.val :: (if which = .a then 0 else 1) :: BitVec.ofNat 16 i :: vs) s =
      doneWith [] (s.modProfile k fun p => p.setBank which ((p.bank which).write i vs)) := by
  have loading : (s.profile k).ownership which = .loading :=
    (HumProfile.ownership_loading_iff _ which).2 ⟨hswap, hserving⟩
  rw [writeHum_run k which hvs hi hrun, if_neg (not_not.2 loading)]

/-! ### READ_HUM -/

theorem exec_readHum (s : State) : exec .readHum s = takeCommand 0x21 readHum s := rfl

theorem readHum_length {args : List Word} (h : args.length ≠ 4) (s : State) :
    readHum args s = refuse .badLength s := by
  match args with
  | [] | [_] | [_, _] | [_, _, _] | _ :: _ :: _ :: _ :: _ :: _ => rfl
  | [_, _, _, _] => exact absurd rfl h

theorem readHum_badArgument {p b i n : Word}
    (h : 7 < p.toNat ∨ 1 < b.toNat ∨ 1023 < i.toNat ∨ 249 < n.toNat ∨ 1024 < i.toNat + n.toNat) (s : State) :
    readHum [p, b, i, n] s = refuse .badArgument s := by
  unfold readHum
  dsimp only
  split
  case h_1 k which profile bank => exact if_pos (run_outside_of_operands h profile bank)
  case h_2 => rfl

theorem readHum_run (k : ProfileId) (which : BankId) {i n : Nat} (hi : i < 1024) (hn : n ≤ 249) (hrun : i + n ≤ 1024)
    (s : State) :
    readHum [BitVec.ofNat 16 k.val, if which = .a then 0 else 1, BitVec.ofNat 16 i, BitVec.ofNat 16 n] s =
      doneWith ((s.profile k).settingWords ++ ((s.profile k).bank which).run i n) s := by
  have inRange : ¬(1023 < i ∨ 249 < n ∨ Config.bankEntries < i + n) :=
    not_or.2 ⟨by omega, not_or.2 ⟨by omega, Nat.not_lt.2 hrun⟩⟩
  have index : (BitVec.ofNat 16 i).toNat = i := toNat_ofNat_word (by omega)
  have count : (BitVec.ofNat 16 n).toNat = n := toNat_ofNat_word (by omega)
  simp only [readHum, argProfile_ofNat, argBank_word, index, count, if_neg inRange]

theorem HumProfile.settingWords_eq (p : HumProfile) :
    p.settingWords =
      [BitVec.ofNat 16 (if p.serving = .a then 2 else if p.swapPending = true then 1 else 0),
        BitVec.ofNat 16 (if p.serving = .b then 2 else if p.swapPending = true then 1 else 0),
        BitVec.ofNat 16 p.bankA.length, BitVec.ofNat 16 p.bankB.length, BitVec.ofNat 16 p.startPhase,
        BitVec.ofNat 16 p.resync.code, BitVec.ofNat 16 p.swapPending.toNat] := by
  simp only [HumProfile.settingWords, HumProfile.ownership_code, boolWord_eq]
  rfl

/-! ### WRITE_RAMP -/

theorem exec_writeRamp (s : State) : exec .writeRamp s = takeCommand 0x30 writeRamp s := rfl

theorem gainsOf_above {ws : List Word} (h : ∃ g ∈ ws, 256 < g.toNat) : gainsOf ws = none := by
  have notAll : ¬(ws.all fun w => decide (w.toNat ≤ 256)) = true := by
    obtain ⟨g, mem, above⟩ := h
    intro all
    have := of_decide_eq_true (List.all_eq_true.1 all g mem)
    omega
  simp only [gainsOf, if_neg notAll, dite_eq_ite, ite_self]

/-- Gains within the limit of R111, sent as words, are read back as the table they came from. -/
theorem gainsOf_ofNat {g : Vector Nat 16} (h : ∀ x ∈ g.toList, x ≤ 256) :
    gainsOf (g.toList.map (BitVec.ofNat 16)) = some g := by
  have value : ∀ x ∈ g.toList, (BitVec.ofNat 16 x).toNat = x := fun x mem =>
    toNat_ofNat_word (Nat.lt_of_le_of_lt (h x mem) (by omega))
  have values : (g.toList.map (BitVec.ofNat 16)).map BitVec.toNat = g.toList := by
    rw [List.map_map]
    exact (List.map_congr_left value).trans (List.map_id _)
  have all : ((g.toList.map (BitVec.ofNat 16)).all fun w => decide (w.toNat ≤ 256)) = true := by
    rw [List.all_map, List.all_eq_true]
    intro x mem
    exact decide_eq_true ((value x mem).symm ▸ h x mem)
  simp only [gainsOf, List.length_map, Vector.length_toList, dif_pos, if_pos all, values, Vector.toArray_toList]

theorem writeRamp_length {args : List Word} (h : args.length ≠ 17) (s : State) :
    writeRamp args s = refuse .badLength s := by
  cases args with
  | nil => rfl
  | cons w ws =>
    have gains : ws.length ≠ 16 := fun sixteen => h (congrArg (· + 1) sixteen)
    exact if_pos gains

theorem writeRamp_badArgument {w : Word} {ws : List Word} (hlen : ws.length = 16)
    (h : 3 < w.toNat ∨ ∃ g ∈ ws, 256 < g.toNat) (s : State) : writeRamp (w :: ws) s = refuse .badArgument s := by
  simp only [writeRamp, ne_eq, hlen, not_true_eq_false, if_false]
  obtain table | gain := h
  · rw [argRamp_above table]
  · rw [gainsOf_above gain]
    cases argRamp w <;> rfl

theorem writeRamp_gains (r : RampId) {g : Vector Nat 16} (h : ∀ x ∈ g.toList, x ≤ 256) (s : State) :
    writeRamp (BitVec.ofNat 16 r.val :: g.toList.map (BitVec.ofNat 16)) s =
      doneWith [] { s with ramps := s.ramps.set r g } := by
  simp only [writeRamp, List.length_map, Vector.length_toList, ne_eq, not_true_eq_false, if_false, argRamp_ofNat,
    gainsOf_ofNat h]

/-! ### READ_RAMP -/

theorem exec_readRamp (s : State) : exec .readRamp s = takeCommand 0x31 readRamp s := rfl

theorem readRamp_length {args : List Word} (h : args.length ≠ 1) (s : State) :
    readRamp args s = refuse .badLength s := by
  match args with
  | [] | _ :: _ :: _ => rfl
  | [_] => exact absurd rfl h

theorem readRamp_above {w : Word} (h : 3 < w.toNat) (s : State) : readRamp [w] s = refuse .badArgument s := by
  simp only [readRamp, argRamp_above h]

/-- A table's words stand in the order of its indices (R112). -/
theorem map_natWord_toList {n : Nat} (g : Vector Nat n) :
    g.toList.map natWord = (List.finRange n).map fun i => BitVec.ofNat 16 g[i] := by
  apply List.ext_getElem <;> simp [natWord]

theorem readRamp_table (r : RampId) (s : State) :
    readRamp [BitVec.ofNat 16 r.val] s =
      doneWith ((List.finRange 16).map fun i => BitVec.ofNat 16 (s.ramps[r])[i]) s := by
  simp only [readRamp, argRamp_ofNat, map_natWord_toList]

/-! ### The claim -/

/-- Settles O10: each command's tests are the branches of its rule; the bank that WRITE_HUM leaves is the bank with the
run written, whose entries `HumBank.entry_write` gives. -/
theorem banksAndTablesAreWrittenAndRead : Obligations.BanksAndTablesAreWrittenAndRead := by
  refine ⟨⟨?writeHum, ?readHum⟩, ?writeRamp, ?readRamp⟩
  case writeHum =>
    intro s tag args rest h
    simp only [exec_writeHum]
    refine ⟨fun hlen => takeCommand_denied h (writeHum_length hlen _), ?_, ?_⟩
    · rintro p b i vs rfl hvs outside
      exact takeCommand_denied h (writeHum_badArgument hvs outside _)
    · rintro k which i vs rfl hvs hi hrun
      constructor
      · intro busy
        exact takeCommand_denied h (writeHum_busy hvs hi hrun (s := s.beginTake rest) busy)
      · intro swap serving wf
        refine ⟨((s.profile k).bank which).write i vs, ?_, rfl, fun j => HumBank.entry_write i vs j wf hrun⟩
        exact takeCommand_done h (writeHum_loading hvs hi hrun (s := s.beginTake rest) swap serving)
  case readHum =>
    intro s tag args rest h
    simp only [exec_readHum]
    refine ⟨fun hlen => takeCommand_denied h (readHum_length hlen _), ?_, ?_⟩
    · rintro p b i n rfl outside
      exact takeCommand_denied h (readHum_badArgument outside _)
    · rintro k which i n p rfl hi hn hrun rfl
      rw [← HumProfile.settingWords_eq]
      exact takeCommand_done h (readHum_run k which hi hn hrun _)
  case writeRamp =>
    intro s tag args rest h
    simp only [exec_writeRamp]
    refine ⟨fun hlen => takeCommand_denied h (writeRamp_length hlen _), ?_, ?_⟩
    · rintro w ws rfl hlen outside
      exact takeCommand_denied h (writeRamp_badArgument hlen outside _)
    · rintro r g rfl hg
      exact takeCommand_done h (writeRamp_gains r hg _)
  case readRamp =>
    intro s tag args rest h
    simp only [exec_readRamp]
    refine ⟨fun hlen => takeCommand_denied h (readRamp_length hlen _), ?_, ?_⟩
    · rintro w rfl above
      exact takeCommand_denied h (readRamp_above above _)
    · rintro r rfl
      exact takeCommand_done h (readRamp_table r _)

end Sys2Proof.Machine
end

section
/-! The generator's commands ATTACH_GENERATOR and INJECT_ERROR (R118, R121). Each rule's tests and effects are said once,
over any state, and hold of the part inside the take as of the part before it. -/

namespace Sys2Proof.Machine

/-! ### The operand and the use of an attached unit -/

theorem argLaneOrNone_outside {w : Word} (above : 15 < w.toNat) (named : w.toNat ≠ 255) : argLaneOrNone w = none := by
  rw [argLaneOrNone, dif_neg (by omega), if_neg named]

/-- Test 3 of R118 and R119: the unit serves a lane that is not OFF, and the argument would take it away. -/
theorem State.unitInUse_iff (s : State) (held new : Option LaneId) (r : Route) :
    s.unitInUse held new r = true ↔
      ∃ l : LaneId, held = some l ∧ (s.lane l).state ≠ .off ∧ (s.lane l).config.route = r ∧ new ≠ some l := by
  cases held with
  | none => simp [State.unitInUse]
  | some l => simp [State.unitInUse, and_assoc]

/-! ### ATTACH_GENERATOR -/

theorem exec_attachGenerator (s : State) : exec .attachGenerator s = takeCommand 0x41 attachGenerator s := rfl

theorem attachGenerator_length {args : List Word} (h : args.length ≠ 1) (s : State) :
    attachGenerator args s = refuse .badLength s := by
  match args with
  | [] | _ :: _ :: _ => rfl
  | [_] => exact absurd rfl h

theorem attachGenerator_outside {w : Word} (above : 15 < w.toNat) (named : w.toNat ≠ 255) (s : State) :
    attachGenerator [w] s = refuse .badArgument s := by
  simp only [attachGenerator, argLaneOrNone_outside above named]

theorem attachGenerator_inUse {s : State} {new : Option LaneId}
    (h : s.unitInUse s.generator.lane new .generate = true) :
    attachGenerator [BitVec.ofNat 16 (laneCode new)] s = refuse .inUse s := by
  simp only [attachGenerator, argLaneOrNone_laneCode, if_pos h]

theorem attachGenerator_free {s : State} {new : Option LaneId}
    (h : ¬s.unitInUse s.generator.lane new .generate = true) :
    attachGenerator [BitVec.ofNat 16 (laneCode new)] s =
      doneWith [] { s with generator := { s.generator with lane := new, next := s.generator.setting.first } } := by
  simp only [attachGenerator, argLaneOrNone_laneCode, if_neg h]

/-! ### INJECT_ERROR -/

theorem exec_injectError (s : State) : exec .injectError s = takeCommand 0x44 injectError s := rfl

theorem injectError_length {args : List Word} (h : args.length ≠ 2) (s : State) :
    injectError args s = refuse .badLength s := by
  match args with
  | [] | [_] | _ :: _ :: _ :: _ => rfl
  | [_, _] => exact absurd rfl h

/-- The two faults of the argument words that test 2 of R121 names, read as numbers. -/
theorem injectError_outside_iff (m p : Word) :
    (2 < m.toNat ∨ (m.toNat = 2 ∧ p.toNat = 0)) ↔ 2 < m.toNat ∨ (m = 2 ∧ p = 0) := by
  simp only [BitVec.toNat_eq, BitVec.reduceToNat]

theorem Generator.inject_words (g : Generator) (m p : Word) :
    g.inject m.toNat p.toNat =
      if m = 0 then { g with single := false, period := 0, countdown := 0 }
      else if m = 1 then { g with single := true }
      else { g with period := p.toNat, countdown := p.toNat } := by
  simp only [Generator.inject, BitVec.toNat_eq, BitVec.reduceToNat]

theorem injectError_badArgument {m p : Word} (h : 2 < m.toNat ∨ (m = 2 ∧ p = 0)) (s : State) :
    injectError [m, p] s = refuse .badArgument s :=
  if_pos ((injectError_outside_iff m p).2 h)

theorem injectError_notAttached {m p : Word} {s : State} (valid : ¬(2 < m.toNat ∨ (m = 2 ∧ p = 0)))
    (detached : s.generator.lane = none) : injectError [m, p] s = refuse .notAttached s := by
  simp only [injectError, injectError_outside_iff, if_neg valid, if_pos detached]

theorem injectError_attached {m p : Word} {s : State} (valid : ¬(2 < m.toNat ∨ (m = 2 ∧ p = 0)))
    (attached : s.generator.lane ≠ none) :
    injectError [m, p] s = doneWith [] { s with generator := s.generator.inject m.toNat p.toNat } := by
  simp only [injectError, injectError_outside_iff, if_neg valid, if_neg attached]

/-! ### The claim -/

/-- Settles O13: each test of R118 and R121 is a branch of its rule, and the branch that passes them all changes the
generator alone. -/
theorem generatorIsAttachedAndMadeToErr : Obligations.GeneratorIsAttachedAndMadeToErr := by
  constructor
  case left =>
    intro s tag args rest h
    simp only [exec_attachGenerator]
    refine ⟨fun hlen => takeCommand_denied h (attachGenerator_length hlen _), ?_, ?_⟩
    · rintro w rfl above named
      exact takeCommand_denied h (attachGenerator_outside above named _)
    · rintro new rfl
      have inUse := (s.beginTake rest).unitInUse_iff s.generator.lane new .generate
      split
      case isTrue busy => exact takeCommand_denied h (attachGenerator_inUse (inUse.2 busy))
      case isFalse free => exact takeCommand_done h (attachGenerator_free (mt inUse.1 free))
  case right =>
    intro s tag args rest h
    simp only [exec_injectError]
    refine ⟨fun hlen => takeCommand_denied h (injectError_length hlen _), ?_⟩
    rintro m p rfl
    rw [← Generator.inject_words]
    split
    case isTrue outside => exact takeCommand_denied h (injectError_badArgument outside _)
    case isFalse valid =>
      split
      case isTrue detached => exact takeCommand_denied h (injectError_notAttached valid detached)
      case isFalse attached => exact takeCommand_done h (injectError_attached valid attached)

end Sys2Proof.Machine
end

section
/-! The intake commands SET_INTAKE and RESUME_INTAKE (R136, R143). Each rule's tests and effects are said once, over any
state, the port that a command leaves being what claims call `paced` (R141, R142) of the port it was given. -/

namespace Sys2Proof.Machine

/-! ### The operands of SET_INTAKE -/

theorem argPaceForm_range {f : PaceForm} {w : Word} (h : argPaceForm w = some f) :
    1 ≤ w.toNat ∧ w.toNat ≤ 3 := by
  unfold argPaceForm at h
  split at h
  case h_1 one => omega
  case h_2 two => omega
  case h_3 three => omega
  case h_4 => contradiction

theorem boolWord_toNat_le (b : Bool) : (boolWord b).toNat ≤ 1 := by cases b <;> decide

/-- Once the halt level, the pace form and halt on damage read back, test 2 of R143 can only fail on the resume level. -/
theorem resumeLevel_outside_of_operands {hw rw fw dw : Word} {halt : Nat} {f : PaceForm} {d : Bool}
    (outside : hw.toNat < 8 ∨ 48 < hw.toNat ∨ hw.toNat ≤ rw.toNat ∨ fw.toNat < 1 ∨ 3 < fw.toNat ∨ 1 < dw.toNat)
    (level : argRange 8 48 hw = some halt) (form : argPaceForm fw = some f) (onDamage : argBool dw = some d) :
    halt ≤ rw.toNat := by
  obtain ⟨rfl, low, high, fits⟩ := argRange_eq_some.1 level
  have value : (natWord halt).toNat = halt := toNat_ofNat_word fits
  have formRange := argPaceForm_range form
  have damageRange : dw.toNat ≤ 1 := argBool_eq_some.1 onDamage ▸ boolWord_toNat_le d
  omega

/-! ### SET_INTAKE -/

theorem exec_setIntake (s : State) : exec .setIntake s = takeCommand 0x50 setIntake s := rfl

theorem setIntake_length {args : List Word} (h : args.length ≠ 4) (s : State) :
    setIntake args s = refuse .badLength s := by
  match args with
  | [] | [_] | [_, _] | [_, _, _] | _ :: _ :: _ :: _ :: _ :: _ => rfl
  | [_, _, _, _] => exact absurd rfl h

theorem setIntake_badArgument {hw rw fw dw : Word}
    (outside : hw.toNat < 8 ∨ 48 < hw.toNat ∨ hw.toNat ≤ rw.toNat ∨ fw.toNat < 1 ∨ 3 < fw.toNat ∨ 1 < dw.toNat)
    (s : State) : setIntake [hw, rw, fw, dw] s = refuse .badArgument s := by
  unfold setIntake
  dsimp only
  split
  case h_1 halt f d level form onDamage =>
    exact if_pos (resumeLevel_outside_of_operands outside level form onDamage)
  case h_2 => rfl

theorem setIntake_inRange {halt resume : Nat} (f : PaceForm) (d : Bool) (low : 8 ≤ halt) (high : halt ≤ 48)
    (below : resume < halt) (s : State) :
    setIntake [BitVec.ofNat 16 halt, BitVec.ofNat 16 resume, BitVec.ofNat 16 f.code, boolWord d] s =
      doneWith [] { s with intake := s.intake.configure halt resume f d } := by
  have level : argRange 8 48 (BitVec.ofNat 16 halt) = some halt := argRange_natWord low high (by omega)
  have onDamage : argBool (boolWord d) = some d := argBool_eq_some.2 rfl
  have value : (BitVec.ofNat 16 resume).toNat = resume := toNat_ofNat_word (by omega)
  simp only [setIntake, level, argPaceForm_code, onDamage, value, if_neg (Nat.not_le.2 below)]

/-! ### The port after each command -/

theorem PaceForm.newlyHasParcel_iff (new old : PaceForm) :
    (new.hasParcel && !old.hasParcel) = true ↔ new ≠ .byLine ∧ old = .byLine := by
  cases new <;> cases old <;> decide

/-- The port with new settings: overrun noticed and the last sent pace as R143 says, and the pace given anew. -/
theorem IntakePort.configure_eq (p : IntakePort) (halt resume : Nat) (f : PaceForm) (d : Bool) :
    p.configure halt resume f d =
      IntakePort.paced
        { p with
          haltLevel := halt
          resumeLevel := resume
          form := f
          haltOnDamage := d
          overrunNoticed := p.overrunNoticed && decide (halt ≤ p.queue.length)
          lastSent := if f ≠ .byLine ∧ p.form = .byLine then none else p.lastSent } := by
  simp only [IntakePort.configure, IntakePort.clearOverrun_eq, IntakePort.repace_eq, PaceForm.newlyHasParcel_iff]

theorem PaceForm.hasLine_iff (f : PaceForm) : f.hasLine = true ↔ f ≠ .byParcel := by cases f <;> decide

/-- INTAKE_HOLD of a part that is not in reset (R142). -/
theorem State.intakeHold_iff {s : State} (running : s.resetLine = false) :
    s.intakeHold = true ↔ s.intake.form ≠ .byParcel ∧ s.intake.pace = .stop := by
  simp [State.intakeHold, running, PaceForm.hasLine_iff]

/-- An accepting port's pace has no more than the levels to follow (R141). -/
theorem IntakePort.paced_accepting (p : IntakePort) :
    (IntakePort.paced { p with port := .accepting }).pace =
      if p.haltLevel ≤ p.queue.length then .stop
      else if p.queue.length ≤ p.resumeLevel then .go else p.pace := by
  simp only [IntakePort.paced, reduceCtorEq, false_or]

/-! ### RESUME_INTAKE -/

theorem exec_resumeIntake (s : State) : exec .resumeIntake s = takeCommand 0x51 (bareCommand resumeIntake) s := rfl

theorem bareCommand_length {args : List Word} (h : args ≠ []) (rule : State → CommandResult) (s : State) :
    bareCommand rule args s = refuse .badLength s := by
  match args with
  | [] => exact absurd rfl h
  | _ :: _ => rfl

theorem resumeIntake_accepting {s : State} (h : s.intake.port = .accepting) : resumeIntake s = doneWith [0] s := by
  simp only [resumeIntake, h, reduceCtorEq, if_false]

theorem resumeIntake_halted {s : State} (h : s.intake.port = .halted) :
    resumeIntake s =
      doneWith [BitVec.ofNat 16 s.intake.drops]
        { s with intake := IntakePort.paced { s.intake with port := .accepting } } := by
  simp only [resumeIntake, if_pos h, IntakePort.repace_eq, natWord]

/-! ### The claim -/

/-- Settles O15: the tests of R143 are the branches of its rule; the port that each command leaves is the port it was
given with the command's own changes made and then paced, so every field the claim names is a field of that record. -/
theorem intakeIsSetAndResumed : Obligations.IntakeIsSetAndResumed := by
  constructor
  case left =>
    intro s tag args rest h
    simp only [exec_setIntake]
    refine ⟨fun hlen => takeCommand_denied h (setIntake_length hlen _), ?_, ?_⟩
    · rintro hw rw fw dw rfl outside
      exact takeCommand_denied h (setIntake_badArgument outside _)
    · rintro halt resume f d rfl low high below
      have taken := takeCommand_done h (setIntake_inRange f d low high below (s.beginTake rest))
        (t := { s with intake := s.intake.configure halt resume f d })
      rw [IntakePort.configure_eq] at taken
      refine ⟨_, _, taken, rfl, rfl, rfl, rfl, ?_⟩
      intro u port running
      rw [State.intakeHold_iff running, port]
      exact Iff.rfl
  case right =>
    intro s tag args rest h
    simp only [exec_resumeIntake]
    refine ⟨fun extra => takeCommand_denied h (bareCommand_length extra _ _), ?_, ?_⟩
    · rintro rfl accepting
      exact takeCommand_done h (resumeIntake_accepting (s := s.beginTake rest) accepting)
    · rintro rfl halted
      have taken := takeCommand_done h (rule := bareCommand resumeIntake)
        (resumeIntake_halted (s := s.beginTake rest) halted)
        (t := { s with intake := IntakePort.paced { s.intake with port := .accepting } })
      exact ⟨_, _, taken, s.intake.paced_accepting, rfl, rfl⟩

end Sys2Proof.Machine
end

section
/-! The delivery commands SET_DELIVERY and FLUSH_NOTICES (R155, R159). Each rule's tests and effects are said once, over
any state; inside a take a commit needs a second free place, the first being set aside for the REPLY (log 8). -/

namespace Sys2Proof.Machine

/-! ### SET_DELIVERY -/

theorem exec_setDelivery (s : State) : exec .setDelivery s = takeCommand 0x53 setDelivery s := rfl

theorem setDelivery_length {args : List Word} (h : args.length ≠ 2) (s : State) :
    setDelivery args s = refuse .badLength s := by
  match args with
  | [] | [_] | _ :: _ :: _ :: _ => rfl
  | [_, _] => exact absurd rfl h

theorem setDelivery_badArgument {fw tw : Word}
    (outside : fw.toNat < 1 ∨ 3 < fw.toNat ∨ tw.toNat < 1 ∨ 255 < tw.toNat) (s : State) :
    setDelivery [fw, tw] s = refuse .badArgument s := by
  unfold setDelivery
  dsimp only
  split
  case h_1 f n form time =>
    have formRange := argPaceForm_range form
    obtain ⟨rfl, low, high, fits⟩ := argRange_eq_some.1 time
    have value : (natWord n).toNat = n := toNat_ofNat_word fits
    omega
  case h_2 => rfl

/-- Settings in range are taken over and the delivery pace is worked out from them, nothing else: the batch timer is not
touched (R153, R155). -/
theorem setDelivery_inRange (f : PaceForm) {n : Nat} (low : 1 ≤ n) (high : n ≤ 255) (s : State) :
    setDelivery [BitVec.ofNat 16 f.code, BitVec.ofNat 16 n] s =
      doneWith []
        { s with
          delivery :=
            { s.delivery with
              form := f
              batchTime := n
              pace :=
                if (f ≠ .byLine ∧ s.delivery.lastPace = .stop) ∨ (f ≠ .byParcel ∧ s.deliveryReady = false)
                  then .stop else .go } } := by
  have time : argRange 1 255 (BitVec.ofNat 16 n) = some n := argRange_ofNat low high (by omega)
  simp only [setDelivery, argPaceForm_code, time, State.freshPace, deliveryPaceOf_eq]

/-! ### FLUSH_NOTICES -/

theorem exec_flushNotices (s : State) : exec .flushNotices s = takeCommand 0x54 (bareCommand flushNotices) s := rfl

theorem DeliveryPort.commitDue_of_room {d : DeliveryPort} (room : d.messageRoom = true) : d.commitDue = d.commit :=
  if_pos room

theorem DeliveryPort.commitDue_of_full {d : DeliveryPort} (full : d.messageRoom = false) :
    d.commitDue = { d with commitPending := true, timer := Timer.idle } :=
  if_neg (by simp [full])

/-- Room for a NOTICE parcel in a take: a second free place, behind the one set aside for the REPLY (R159, log 8). -/
theorem State.messageRoom_beginTake (s : State) (rest : List ControlParcel) :
    (s.beginTake rest).delivery.messageRoom = decide (s.delivery.messages.length + 1 < 8) := rfl

theorem flushNotices_empty {s : State} (empty : s.delivery.batch = []) : flushNotices s = doneWith [0, 0] s := by
  simp [flushNotices, empty]

theorem flushNotices_room {s : State} (held : s.delivery.batch ≠ []) (room : s.delivery.messageRoom = true) :
    flushNotices s =
      doneWith [natWord s.delivery.batch.length, 0] { s with delivery := s.delivery.commit } := by
  have count : s.delivery.batch.length ≠ 0 := mt List.length_eq_zero_iff.1 held
  simp only [flushNotices, if_neg count, if_pos room, DeliveryPort.commitDue_of_room room]

theorem flushNotices_full {s : State} (held : s.delivery.batch ≠ []) (full : s.delivery.messageRoom = false) :
    flushNotices s =
      doneWith [0, natWord s.delivery.batch.length]
        { s with delivery := { s.delivery with commitPending := true, timer := Timer.idle } } := by
  have count : s.delivery.batch.length ≠ 0 := mt List.length_eq_zero_iff.1 held
  simp only [flushNotices, if_neg count, full, Bool.false_eq_true, if_false, DeliveryPort.commitDue_of_full full]

/-! ### The claim -/

/-- Settles O17: the tests of R155 are the branches of its rule, and R159 has one row each for an empty batch, for a
second free place in the message queue, and for none. -/
theorem deliveryIsSetAndNoticesAreFlushed : Obligations.DeliveryIsSetAndNoticesAreFlushed := by
  constructor
  case left =>
    intro s tag args rest h
    rw [exec_setDelivery]
    refine ⟨fun hlen => takeCommand_denied h (setDelivery_length hlen _), ?_, ?_⟩
    · rintro f t rfl outside
      exact takeCommand_denied h (setDelivery_badArgument outside _)
    · rintro f n rfl low high
      exact takeCommand_done h (setDelivery_inRange f low high _)
  case right =>
    intro s tag args rest h
    rw [exec_flushNotices]
    refine ⟨fun extra => takeCommand_denied h (bareCommand_length extra _ _), ?_⟩
    rintro rfl
    have place := s.messageRoom_beginTake rest
    by_cases empty : s.delivery.batch = []
    case pos =>
      rw [if_pos empty]
      exact takeCommand_done h (flushNotices_empty (s := s.beginTake rest) empty)
    case neg =>
      rw [if_neg empty]
      by_cases second : s.delivery.messages.length + 1 < 8
      case pos =>
        rw [if_pos second]
        have room := place.trans (decide_eq_true second)
        exact takeCommand_done h (flushNotices_room (s := s.beginTake rest) empty room)
      case neg =>
        rw [if_neg second]
        have full := place.trans (decide_eq_false second)
        exact takeCommand_done h (flushNotices_full (s := s.beginTake rest) empty full)

end Sys2Proof.Machine
end

section
/-! READ_PORTS (R169). The answer is built block by block (R181); each block's words are the words of the values R181
lists for it, and the part inside the take differs from the part before it only by the head that has left. -/

namespace Sys2Proof.Machine

/-! ### The codes of the two-valued states (R179) -/

theorem LinkState.code_eq (k : LinkState) : k.code = if k = .up then 1 else 0 := by cases k <;> rfl

theorem PortState.code_eq (k : PortState) : k.code = if k = .halted then 1 else 0 := by cases k <;> rfl

theorem Pace.code_eq (p : Pace) : p.code = if p = .go then 1 else 0 := by cases p <;> rfl

/-! ### The blocks of the answer -/

/-- Words 0 to 29 of READ_PORTS (R169, R181). -/
theorem IntakePort.readWords_eq (p : IntakePort) :
    p.readWords =
      ([(if p.link = LinkState.up then 1 else 0), (if p.port = PortState.halted then 1 else 0), p.queue.length,
          (if p.pace = Pace.go then 1 else 0), p.haltLevel, p.resumeLevel, p.form.code, p.haltOnDamage.toNat]
        ++ p.counters.toList.flatMap fun (c : Counter) => [c.toNat / 65536, c.toNat % 65536]).map
          (BitVec.ofNat 16) := by
  rw [IntakePort.readWords, flatMap_words32, LinkState.code_eq, PortState.code_eq, Pace.code_eq, boolWord_eq,
    List.map_append]
  rfl

/-- Words 30 to 64 of READ_PORTS (R169, R181). -/
theorem DeliveryPort.readWords_eq (d : DeliveryPort) (ready : Bool) :
    d.readWords ready =
      ([(if d.link = LinkState.up then 1 else 0), d.samples.length, d.messages.length, d.batch.length,
          d.commitPending.toNat, d.lossFlag.toNat, (if d.pace = Pace.go then 1 else 0),
          (if d.lastPace = Pace.go then 1 else 0), ready.toNat, d.form.code, d.batchTime]
        ++ d.counters.toList.flatMap fun (c : Counter) => [c.toNat / 65536, c.toNat % 65536]).map
          (BitVec.ofNat 16) := by
  simp only [DeliveryPort.readWords, flatMap_words32, LinkState.code_eq, Pace.code_eq, boolWord_eq, List.map_append]
  rfl

/-- Words 65 to 70 of READ_PORTS (R169, R181). -/
theorem State.resourceWords_eq (s : State) :
    s.resourceWords =
      [24576 - (s.lanes.toList.map Lane.allocation).sum,
        (s.lanes.toList.map fun (ln : Lane) => ln.det.runs.length).sum, s.fullNoticed.toNat, s.repair.queue.length,
        s.repair.inProgress.isSome.toNat, s.waitList.length].map (BitVec.ofNat 16) := by
  rw [State.resourceWords, boolWord_eq, boolWord_eq]
  rfl

/-- The words are those of the part before the take, but for the number of commands waiting: the head has left. -/
theorem State.portWords_beginTake (s : State) (rest : List ControlParcel) :
    (s.beginTake rest).portWords =
      s.intake.readWords ++ s.delivery.readWords s.deliveryReady ++ s.resourceWords
        ++ [natWord rest.length] ++ s.control.counters.toList.flatMap words32 := rfl

/-! ### The claim -/

theorem exec_readPorts (s : State) : exec .readPorts s = takeCommand 0x52 (bareCommand readPorts) s := rfl

/-- Settles O16: the rule answers DONE with the words of the part inside the take, and these are, block by block, the
words of the values R181 lists. -/
theorem readPortsReportsTheSharedState : Obligations.ReadPortsReportsTheSharedState := by
  intro s tag args rest two h two_eq
  obtain rfl : two = fun c => [c.toNat / 65536, c.toNat % 65536] := funext two_eq
  rw [exec_readPorts]
  refine ⟨fun extra => takeCommand_denied h (bareCommand_length extra _ _), ?_⟩
  rintro rfl
  have read : takeCommand 0x52 (bareCommand readPorts) s = .next (s.done tag rest (s.beginTake rest).portWords) :=
    takeCommand_done (u := s.beginTake rest) h rfl
  rw [read, State.portWords_beginTake, IntakePort.readWords_eq, DeliveryPort.readWords_eq, State.resourceWords_eq,
    flatMap_words32]
  simp only [natWord, List.map_append, List.map_cons, List.map_nil, List.append_assoc, List.cons_append,
    List.nil_append]

end Sys2Proof.Machine
end

section
/-! What a step can do, said once: the effect of every command inside its take (`CommandEffect`), of every event
(`Effect`), and the steps they make (`exec_stepEffect`). Each law that every step keeps is then a case split over these. -/

namespace Sys2Proof.Machine

/-- What the rule of a command can make of the part s inside its take. -/
inductive CommandEffect (s : State) : State → Prop
  | kept : CommandEffect s s
  | configured (l : LaneId) (c : LaneConfig) : ConfigInRange c →
      ((s.lane l).state = .off ∨ (s.lane l).config.changesFixed c = false) →
      CommandEffect s ((s.modLane l fun ln => { ln with config := c }).wake l)
  | armed (l : LaneId) : (s.lane l).state = .off → (s.lane l).config.allocation ≤ s.freePlaces →
      CommandEffect s (s.armLane l)
  | stopped (l : LaneId) : (s.lane l).state = .armed ∨ (s.lane l).state = .stalled →
      CommandEffect s ((s.becomeOff l).issue (laneNotice .laneIdle l 0 0))
  | drained (l : LaneId) : (s.lane l).state.isRunning = true → CommandEffect s (s.beginDrain l .off)
  | retargeted (l : LaneId) : (s.lane l).state = .draining .armed →
      CommandEffect s (s.changeState l (.draining .off))
  | aborted (l : LaneId) : (s.lane l).state ≠ .off → CommandEffect s (s.abort l)
  | countersCleared (l : LaneId) :
      CommandEffect s (s.modLane l fun ln => { ln with counters := Vector.replicate 16 0 })
  | bankWritten (k : ProfileId) (which : BankId) (i : Nat) (vs : List Sample) :
      i + vs.length ≤ Config.bankEntries → (s.profile k).ownership which = .loading →
      CommandEffect s (s.modProfile k fun p => p.setBank which ((p.bank which).write i vs))
  | humSet (k : ProfileId) (n f : Nat) (r : ResyncSource) : (n ≠ 0 → 16 ≤ n ∧ n ≤ 1024) →
      (n ≠ 0 → (s.profile k).swapPending = false) → f ≤ 1023 →
      CommandEffect s (s.modProfile k fun p =>
        { (if n = 0 then p else p.setLoadingLength n) with startPhase := f, resync := r })
  | humCommitted (k : ProfileId) : s.hasUser k = true →
      CommandEffect s (s.modProfile k fun p => { p with swapPending := true })
  | humSwapped (k : ProfileId) : s.hasUser k = false →
      CommandEffect s ((s.modProfile k fun p => { p with swapPending := true }).swap k none 0)
  | resynced (k : ProfileId) :
      CommandEffect s { s with lanes := s.lanes.map fun (ln : Lane) => ln.markRestart k }
  | rampWritten (t : RampId) (g : Vector Nat 16) : (∀ x ∈ g.toList, x ≤ 256) →
      CommandEffect s { s with ramps := s.ramps.set t g }
  | generatorSet (g : Generator) : CommandEffect s { s with generator := g }
  | patternSet (p : PatternSetting) :
      CommandEffect s (State.checkerSearch { s with checker := { s.checker with setting := p } } 0 3)
  | checkerAttached (new : Option LaneId) :
      CommandEffect s (State.checkerSearch { s with checker := { s.checker with lane := new } } 0 3)
  | checkerLatched : CommandEffect s { s with checker := s.checker.clearCounts }
  | intakeSet (halt resume : Nat) (f : PaceForm) (d : Bool) : 8 ≤ halt → halt ≤ 48 → resume < halt →
      CommandEffect s { s with intake := s.intake.configure halt resume f d }
  | intakeResumed : CommandEffect s { s with intake := IntakePort.repace { s.intake with port := .accepting } }
  | deliverySet (f : PaceForm) (t : Nat) :
      CommandEffect s (State.freshPace { s with delivery := { s.delivery with form := f, batchTime := t } })
  | flushed : s.delivery.batch ≠ [] → CommandEffect s { s with delivery := s.delivery.commitDue }
  | partReset : CommandEffect s s.resetPart

/-- The answer of a command's rule: an effect, and at most 256 result words (R168). -/
structure CommandResult.Lawful (s : State) (r : CommandResult) : Prop where
  effect : CommandEffect s r.after
  words : r.words.length ≤ 256

/-- What an event, or the take of a command, can make of the running part s. -/
inductive Effect (s : State) : State → Prop
  | kept : Effect s s
  | taken (p : ControlParcel) (rest : List ControlParcel) (r : CommandResult) :
      s.control.queue = p :: rest → s.delivery.messages.length < 8 → r.Lawful (s.beginTake rest) →
      Effect s (r.after.queueReply p.tag r)
  | intakeArrived (rx : List RxWord) : isParcel rx = true → Effect s (s.intakeArrival rx)
  | intakeUp : Effect s { s with intake := s.intake.linkUp }
  | intakeDown (receiving : Bool) : Effect s { s with intake := s.intake.linkDown receiving }
  | paceEnded : Effect s { s with intake := s.intake.paceEnd }
  | offered (p : InParcel) (rest : List InParcel) : s.intake.queue = p :: rest →
      Effect s ((s.answer p).2.actOn (s.answer p).1)
  | returnArrived (rx : List RxWord) : Effect s (s.returnArrival rx)
  | deliveryUp : s.delivery.link = .down → Effect s { s with delivery := { s.delivery with link := .up } }
  | deliveryDown (receiving : Bool) : Effect s { s with delivery := s.delivery.linkDown receiving }
  | started : Effect s { s with delivery := s.delivery.start }
  | ended : Effect s s.endTransmission
  | starved (l : LaneId) : (s.lane l).state = .running false → Effect s (s.expireLane l)
  | batchExpired : s.delivery.timer.expired = true → Effect s { s with delivery := s.delivery.commitDue }
  | repairTaken : Effect s s.takeRepair
  | repairCompleted : Effect s s.completeRepair

/-! ### The rules of the commands -/

theorem refuse_lawful (s : State) (o : OutcomeCode) : (refuse o s).Lawful s := ⟨.kept, Nat.zero_le _⟩

theorem configureLane_lawful (args : List Word) (s : State) : (configureLane args s).Lawful s := by
  unfold configureLane
  split
  · split
    · exact refuse_lawful s _
    · split
      · rename_i l c _ fields
        dsimp only
        split
        · exact refuse_lawful s _
        · rename_i fixed
          split
          · exact refuse_lawful s _
          · refine ⟨.configured l c (LaneConfig.ofWords_eq_some.1 fields).1 ?_, Nat.zero_le _⟩
            rw [not_and_or, not_not, Bool.not_eq_true] at fixed
            exact fixed
      · exact refuse_lawful s _
  · exact refuse_lawful s _

theorem laneCommand_lawful {rule : LaneId → State → CommandResult} (h : ∀ l s, (rule l s).Lawful s) (args : List Word)
    (s : State) : (laneCommand rule args s).Lawful s := by
  unfold laneCommand
  split
  · split
    · exact h _ s
    · exact refuse_lawful s _
  · exact refuse_lawful s _

theorem bareCommand_lawful {rule : State → CommandResult} (h : ∀ s, (rule s).Lawful s) (args : List Word)
    (s : State) : (bareCommand rule args s).Lawful s := by
  unfold bareCommand
  split
  · exact h s
  · exact refuse_lawful s _

theorem startLane_lawful (l : LaneId) (s : State) : (startLane l s).Lawful s := by
  unfold startLane
  dsimp only
  split
  · exact refuse_lawful s _
  · rename_i off
    split
    · exact refuse_lawful s _
    · split
      · exact refuse_lawful s _
      · rename_i space
        exact ⟨.armed l (not_not.1 off) (Nat.not_lt.1 space), Nat.le_of_ble_eq_true rfl⟩

theorem stopLane_lawful (l : LaneId) (s : State) : (stopLane l s).Lawful s := by
  unfold stopLane
  split
  · exact ⟨.kept, Nat.zero_le _⟩
  · rename_i h
    exact ⟨.stopped l (.inl h), Nat.zero_le _⟩
  · rename_i h
    exact ⟨.stopped l (.inr h), Nat.zero_le _⟩
  · rename_i h
    exact ⟨.drained l (by rw [h]; rfl), Nat.zero_le _⟩
  · rename_i h
    exact ⟨.retargeted l h, Nat.zero_le _⟩
  · exact ⟨.kept, Nat.zero_le _⟩

theorem abortLane_lawful (l : LaneId) (s : State) : (abortLane l s).Lawful s := by
  unfold abortLane
  split
  · exact refuse_lawful s _
  · rename_i h
    exact ⟨.aborted l h, Nat.zero_le _⟩

theorem LaneConfig.length_words (c : LaneConfig) : c.words.length = 26 := rfl

theorem length_expectedWords (e : Option SeqNum) : (expectedWords e).length = 2 := by cases e <;> rfl

theorem length_words32 (c : Counter) : (words32 c).length = 2 := rfl

theorem readLane_lawful (l : LaneId) (s : State) : (readLane l s).Lawful s := by
  refine ⟨.kept, ?_⟩
  simp [readLane, doneWith, Lane.readWords, LaneConfig.length_words, length_expectedWords, length_words32]

theorem clearLaneCounters_lawful (l : LaneId) (s : State) : (clearLaneCounters l s).Lawful s :=
  ⟨.countersCleared l, Nat.zero_le _⟩

theorem writeHum_lawful (args : List Word) (s : State) : (writeHum args s).Lawful s := by
  unfold writeHum
  split
  · split
    · split
      · exact refuse_lawful s _
      · rename_i run
        split
        · exact refuse_lawful s _
        · rename_i loading
          exact ⟨.bankWritten _ _ _ _ (by omega) (not_not.1 loading), Nat.zero_le _⟩
    · exact refuse_lawful s _
  · exact refuse_lawful s _

theorem readHum_lawful (args : List Word) (s : State) : (readHum args s).Lawful s := by
  unfold readHum
  split
  · split
    · split
      · exact refuse_lawful s _
      · rename_i run
        refine ⟨.kept, ?_⟩
        simp only [doneWith, HumProfile.settingWords, HumBank.run, List.length_append, List.length_map, List.length_cons,
          List.length_nil, List.length_range]
        omega
    · exact refuse_lawful s _
  · exact refuse_lawful s _

theorem argHumLength_range {w : Word} {n : Nat} (h : argHumLength w = some n) : n ≠ 0 → 16 ≤ n ∧ n ≤ 1024 := by
  unfold argHumLength at h
  split at h
  · cases h
    exact fun c => absurd rfl c
  · have := argRange_eq_some.1 h
    exact fun _ => ⟨this.2.1, this.2.2.1⟩

theorem setHum_lawful (args : List Word) (s : State) : (setHum args s).Lawful s := by
  unfold setHum
  split
  · split
    · rename_i k n f r _ length phase _
      split
      · exact refuse_lawful s _
      · rename_i busy
        refine ⟨.humSet k n f r (argHumLength_range length) (fun hn => ?_) (argRange_eq_some.1 phase).2.2.1,
          Nat.zero_le _⟩
        exact Bool.eq_false_of_not_eq_true fun c => busy ⟨hn, c⟩
    · exact refuse_lawful s _
  · exact refuse_lawful s _

theorem commitHum_lawful (args : List Word) (s : State) : (commitHum args s).Lawful s := by
  unfold commitHum
  split
  · split
    · split
      · exact refuse_lawful s _
      · dsimp only
        split
        · rename_i user
          exact ⟨.humCommitted _ user, Nat.le_of_ble_eq_true rfl⟩
        · rename_i user
          exact ⟨.humSwapped _ (Bool.eq_false_of_not_eq_true user), Nat.le_of_ble_eq_true rfl⟩
    · exact refuse_lawful s _
  · exact refuse_lawful s _

theorem resyncHum_lawful (args : List Word) (s : State) : (resyncHum args s).Lawful s := by
  unfold resyncHum
  split
  · split
    · split
      · exact refuse_lawful s _
      · exact ⟨.resynced _, Nat.le_of_ble_eq_true rfl⟩
    · exact refuse_lawful s _
  · exact refuse_lawful s _

theorem gainsOf_le {ws : List Word} {g : Vector Nat 16} (h : gainsOf ws = some g) : ∀ x ∈ g.toList, x ≤ 256 := by
  unfold gainsOf at h
  split at h
  · split at h
    · rename_i all
      cases h
      intro x hx
      simp only [Vector.toList_mk, List.mem_map] at hx
      obtain ⟨w, hw, rfl⟩ := hx
      exact of_decide_eq_true (List.all_eq_true.1 all w hw)
    · contradiction
  · contradiction

theorem writeRamp_lawful (args : List Word) (s : State) : (writeRamp args s).Lawful s := by
  unfold writeRamp
  split
  · split
    · exact refuse_lawful s _
    · split
      · rename_i t g _ gains
        exact ⟨.rampWritten t g (gainsOf_le gains), Nat.zero_le _⟩
      · exact refuse_lawful s _
  · exact refuse_lawful s _

theorem readRamp_lawful (args : List Word) (s : State) : (readRamp args s).Lawful s := by
  unfold readRamp
  split
  · split
    · exact ⟨.kept, by simp [doneWith]⟩
    · exact refuse_lawful s _
  · exact refuse_lawful s _

theorem setPattern_lawful (args : List Word) (s : State) : (setPattern args s).Lawful s := by
  unfold setPattern
  split
  · split
    · split
      · exact ⟨.generatorSet _, Nat.zero_le _⟩
      · exact ⟨.patternSet _, Nat.zero_le _⟩
    · exact refuse_lawful s _
  · exact refuse_lawful s _

theorem attachGenerator_lawful (args : List Word) (s : State) : (attachGenerator args s).Lawful s := by
  unfold attachGenerator
  split
  · split
    · split
      · exact refuse_lawful s _
      · exact ⟨.generatorSet _, Nat.zero_le _⟩
    · exact refuse_lawful s _
  · exact refuse_lawful s _

theorem attachChecker_lawful (args : List Word) (s : State) : (attachChecker args s).Lawful s := by
  unfold attachChecker
  split
  · split
    · split
      · exact refuse_lawful s _
      · exact ⟨.checkerAttached _, Nat.zero_le _⟩
    · exact refuse_lawful s _
  · exact refuse_lawful s _

theorem latchChecker_lawful (s : State) : (latchChecker s).Lawful s := ⟨.checkerLatched, by
  simp [latchChecker, doneWith, State.latchWords, words32]⟩

theorem injectError_lawful (args : List Word) (s : State) : (injectError args s).Lawful s := by
  unfold injectError
  split
  · split
    · exact refuse_lawful s _
    · split
      · exact refuse_lawful s _
      · exact ⟨.generatorSet _, Nat.zero_le _⟩
  · exact refuse_lawful s _

theorem setIntake_lawful (args : List Word) (s : State) : (setIntake args s).Lawful s := by
  unfold setIntake
  split
  · split
    · rename_i h f d level _ _
      split
      · exact refuse_lawful s _
      · rename_i below
        obtain ⟨_, low, high, _⟩ := argRange_eq_some.1 level
        exact ⟨.intakeSet _ _ _ _ low high (Nat.not_le.1 below), Nat.zero_le _⟩
    · exact refuse_lawful s _
  · exact refuse_lawful s _

theorem resumeIntake_lawful (s : State) : (resumeIntake s).Lawful s := by
  unfold resumeIntake
  split
  · exact ⟨.intakeResumed, Nat.le_of_ble_eq_true rfl⟩
  · exact ⟨.kept, Nat.le_of_ble_eq_true rfl⟩

theorem readPorts_lawful (s : State) : (readPorts s).Lawful s := by
  refine ⟨.kept, ?_⟩
  simp [readPorts, doneWith, State.portWords, IntakePort.readWords, DeliveryPort.readWords, State.resourceWords,
    length_words32]

theorem setDelivery_lawful (args : List Word) (s : State) : (setDelivery args s).Lawful s := by
  unfold setDelivery
  split
  · split
    · exact ⟨.deliverySet _ _, Nat.zero_le _⟩
    · exact refuse_lawful s _
  · exact refuse_lawful s _

theorem flushNotices_lawful (s : State) : (flushNotices s).Lawful s := by
  unfold flushNotices
  dsimp only
  split
  · exact ⟨.kept, Nat.le_of_ble_eq_true rfl⟩
  · rename_i held
    have flushed : CommandEffect s { s with delivery := s.delivery.commitDue } :=
      .flushed fun empty => held (by rw [empty]; rfl)
    split
    · exact ⟨flushed, Nat.le_of_ble_eq_true rfl⟩
    · exact ⟨flushed, Nat.le_of_ble_eq_true rfl⟩

theorem resetPart_lawful (s : State) : (resetPart s).Lawful s := ⟨.partReset, Nat.zero_le _⟩

/-! ### Takes and events -/

theorem takeWhen_effect (isHead : ControlParcel → Bool) {rule : List Word → State → CommandResult}
    (h : ∀ args s, (rule args s).Lawful s) (s : State) : Effect s (takeWhen isHead rule s) := by
  unfold takeWhen
  split
  · exact .kept
  · rename_i p rest queue
    split
    · rename_i due
      rw [Bool.and_eq_true] at due
      exact .taken p rest _ queue (of_decide_eq_true due.2) (h _ _)
    · exact .kept

/-- The part after the level of DELIVERY_READY has changed (R153; log 6). -/
def State.readyChanged (s : State) (level : Bool) : State :=
  if s.resetLine then { s with deliveryReady := level } else State.freshPace { s with deliveryReady := level }

/-- An event that is not due leaves the part as it is (log 1). -/
theorem Effect.ifDue {s t : State} {due : Prop} [Decidable due] (h : due → Effect s t) :
    Effect s (if due then t else s) := by
  split
  · rename_i hd
    exact h hd
  · exact .kept

theorem State.offerHead_effect (s : State) : Effect s s.offerHead := by
  unfold State.offerHead
  split
  · exact .kept
  · rename_i p rest queue
    split
    · exact .kept
    · exact .offered p rest queue

/-- All that a command or event other than the two of the RESET line can do: the level of DELIVERY_READY moves, nothing,
or an effect on the running part. -/
inductive ExecEffect (s : State) : State → Prop
  | ready (level : Bool) : ExecEffect s (s.readyChanged level)
  | kept : ExecEffect s s
  | effect {t : State} : s.resetLine = false → Effect s t → ExecEffect s t

/-- All that a step can do: a tick, a move of the RESET line, or the front command's effect. -/
inductive StepEffect (s : State) : State → Prop
  | tick : StepEffect s s.tick
  | powerOn (level : Bool) : StepEffect s (s.powerOnKeeping level)
  | exec {t : State} : ExecEffect s t → StepEffect s t

/-- A meaning that is an effect while the part runs (R171). -/
theorem whileRunning_effect {s : State} {f : State → State} (h : Effect s (f s)) :
    ∃ t, whileRunning f s = .next t ∧ ExecEffect s t := by
  refine ⟨_, rfl, ?_⟩
  cases running : s.resetLine with
  | true => exact .kept
  | false => exact .effect running h

/-- Every command and event outside the RESET line answers one of the effects. -/
theorem exec_effect (c : Instr) (s : State) (assert : c ≠ .resetAssert) (start : c ≠ .powerOnStart) :
    ∃ t, exec c s = .next t ∧ ExecEffect s t := by
  have take : ∀ (code : Word) {rule : List Word → State → CommandResult}, (∀ args s, (rule args s).Lawful s) →
      ∃ t, takeCommand code rule s = .next t ∧ ExecEffect s t := fun code rule h =>
    whileRunning_effect (takeWhen_effect _ h s)
  cases c with
  | configureLane => exact take _ configureLane_lawful
  | startLane => exact take _ (laneCommand_lawful startLane_lawful)
  | stopLane => exact take _ (laneCommand_lawful stopLane_lawful)
  | abortLane => exact take _ (laneCommand_lawful abortLane_lawful)
  | readLane => exact take _ (laneCommand_lawful readLane_lawful)
  | clearLaneCounters => exact take _ (laneCommand_lawful clearLaneCounters_lawful)
  | writeHum => exact take _ writeHum_lawful
  | readHum => exact take _ readHum_lawful
  | setHum => exact take _ setHum_lawful
  | commitHum => exact take _ commitHum_lawful
  | resyncHum => exact take _ resyncHum_lawful
  | writeRamp => exact take _ writeRamp_lawful
  | readRamp => exact take _ readRamp_lawful
  | setPattern => exact take _ setPattern_lawful
  | attachGenerator => exact take _ attachGenerator_lawful
  | attachChecker => exact take _ attachChecker_lawful
  | latchChecker => exact take _ (bareCommand_lawful latchChecker_lawful)
  | injectError => exact take _ injectError_lawful
  | setIntake => exact take _ setIntake_lawful
  | resumeIntake => exact take _ (bareCommand_lawful resumeIntake_lawful)
  | readPorts => exact take _ (bareCommand_lawful readPorts_lawful)
  | setDelivery => exact take _ setDelivery_lawful
  | flushNotices => exact take _ (bareCommand_lawful flushNotices_lawful)
  | resetPart => exact take _ (bareCommand_lawful resetPart_lawful)
  | badCommand => exact whileRunning_effect (takeWhen_effect _ (fun _ s => refuse_lawful s _) s)
  | resetAssert => exact absurd rfl assert
  | powerOnStart => exact absurd rfl start
  | intakeArrival rx => exact whileRunning_effect (.ifDue fun due => .intakeArrived rx due.2)
  | intakeLinkUp => exact whileRunning_effect (.ifDue fun _ => .intakeUp)
  | intakeLinkDown receiving => exact whileRunning_effect (.ifDue fun _ => .intakeDown receiving)
  | intakePaceEnd => exact whileRunning_effect (f := fun s => { s with intake := s.intake.paceEnd }) .paceEnded
  | offer => exact whileRunning_effect s.offerHead_effect
  | returnArrival rx => exact whileRunning_effect (.ifDue fun _ => .returnArrived rx)
  | deliveryLinkUp => exact whileRunning_effect (.ifDue fun down => .deliveryUp down)
  | deliveryLinkDown receiving => exact whileRunning_effect (.ifDue fun _ => .deliveryDown receiving)
  | deliveryReadyChange level => exact ⟨_, rfl, .ready level⟩
  | transmissionStart => exact whileRunning_effect (f := fun s => { s with delivery := s.delivery.start }) .started
  | transmissionEnd => exact whileRunning_effect .ended
  | starvationExpiry l => exact whileRunning_effect (.ifDue fun h => .starved l h.1)
  | batchExpiry => exact whileRunning_effect (.ifDue fun expired => .batchExpired expired)
  | repairTake => exact whileRunning_effect .repairTaken
  | repairCompletion => exact whileRunning_effect .repairCompleted

theorem exec_stepEffect (c : Instr) (s : State) : ∃ t, exec c s = .next t ∧ StepEffect s t := by
  by_cases assert : c = .resetAssert
  · subst assert
    exact ⟨_, rfl, .powerOn true⟩
  by_cases start : c = .powerOnStart
  · subst start
    exact ⟨_, rfl, .powerOn false⟩
  obtain ⟨t, next, effect⟩ := exec_effect c s assert start
  exact ⟨t, next, .exec effect⟩

/-- A law that does not look at the waiting events, and that every effect keeps, every step keeps. -/
theorem step_keeps {P : State → Prop} (queue : ∀ (s : State) (q : List Instr), P s → P { s with pending := q })
    (keeps : ∀ s t : State, StepEffect s t → P s → P t) {s t : State} (h : step s = .next t) (hs : P s) : P t := by
  unfold step at h
  split at h
  · cases h
    exact keeps s _ .tick hs
  · rename_i c rest _
    obtain ⟨u, next, effect⟩ := exec_stepEffect c { s with pending := rest }
    obtain rfl : u = t := by
      rw [next] at h
      exact Host.Outcome.next.inj h
    exact keeps _ _ effect (queue s rest hs)

end Sys2Proof.Machine
end

section
/-! The lines, the queues and the pace of the part across a step (R132, R141, R153, R156 to R158). Most commands are work of
the lanes, of which `Work.frame` says what it leaves; the others are told apart by `CommandShape`. -/

namespace Sys2Proof.Machine

/-! ### The shape of an effect -/

/-- The effects of commands by what they leave: work of the lanes, or one of the changes that is none. -/
inductive CommandShape (s : State) : State → Prop
  | work {t : State} : Work s t → CommandShape s t
  | configured (l : LaneId) (c : LaneConfig) : CommandShape s ((s.modLane l fun ln => { ln with config := c }).wake l)
  | rampWritten (t : RampId) (g : Vector Nat 16) : CommandShape s { s with ramps := s.ramps.set t g }
  | intakeSet (halt resume : Nat) (f : PaceForm) (d : Bool) : 8 ≤ halt → halt ≤ 48 → resume < halt →
      CommandShape s { s with intake := s.intake.configure halt resume f d }
  | intakeResumed : CommandShape s { s with intake := IntakePort.repace { s.intake with port := .accepting } }
  | deliverySet (f : PaceForm) (t : Nat) :
      CommandShape s (State.freshPace { s with delivery := { s.delivery with form := f, batchTime := t } })
  | flushed : s.delivery.batch ≠ [] → CommandShape s { s with delivery := s.delivery.commitDue }
  | partReset : CommandShape s s.resetPart

theorem Lane.config_markRestart (ln : Lane) (k : ProfileId) : (ln.markRestart k).config = ln.config := by
  unfold Lane.markRestart
  split <;> rfl

theorem Checker.law_clearCounts {c : Checker} (h : CheckerLaw c) : CheckerLaw c.clearCounts := by
  obtain ⟨_, _, _, lawful⟩ := h
  exact ⟨Nat.le_refl 0, by simp [Checker.clearCounts], by simp [Checker.clearCounts], lawful⟩

theorem State.armLane_work (s : State) (l : LaneId) : Work s (s.armLane l) :=
  (s.changeState_work l .armed).trans (.modLane _ _ _)

theorem State.dropRuns_work (s : State) (l : LaneId) : Work s (s.dropRuns l) := by
  unfold State.dropRuns
  split
  · exact .refl s
  · exact (Work.modDet s l fun d => { d with runs := [] }).trans (.fullNoticed _ _)

theorem State.abort_work (s : State) (l : LaneId) : Work s (s.abort l) := by
  unfold State.abort
  refine (Work.repair s (s.dropRepairWork l).repair).trans ?_
  refine (State.dropRuns_work _ l).trans ?_
  refine (Work.modLane _ l Lane.discardWork).trans ?_
  exact (Work.leaveWait _ l).trans (State.becomeOff_work _ l)

theorem State.checkerSet_work (s : State) (c : Checker) (seq : SeqNum) (d : Word)
    (h : CheckerLaw s.checker → CheckerLaw c) : Work s (State.checkerSearch { s with checker := c } seq d) :=
  (Work.checker s c h).trans (State.checkerSearch_work _ _ _)

theorem CommandEffect.shape {s t : State} (h : CommandEffect s t) : CommandShape s t := by
  cases h with
  | kept => exact .work (.refl s)
  | configured l c _ _ => exact .configured l c
  | armed l _ _ => exact .work (s.armLane_work l)
  | stopped l _ => exact .work ((s.becomeOff_work l).trans (.issue _ _))
  | drained l _ => exact .work (s.beginDrain_work l .off)
  | retargeted l _ => exact .work (s.changeState_work l _)
  | aborted l _ => exact .work (s.abort_work l)
  | countersCleared l => exact .work (.modLane s l _)
  | bankWritten k which i vs _ _ => exact .work (.modProfile s k _)
  | humSet k n f r _ _ _ => exact .work (.modProfile s k _)
  | humCommitted k _ => exact .work (.modProfile s k _)
  | humSwapped k _ => exact .work ((Work.modProfile s k _).trans (State.swap_work _ _ _ _))
  | resynced k =>
    refine .work (.lanes s _ fun m => ?_)
    rw [Fin.getElem_fin, Vector.getElem_map]
    exact Lane.config_markRestart _ _
  | rampWritten t g _ => exact .rampWritten t g
  | generatorSet g => exact .work (.generator s g)
  | patternSet p => exact .work (s.checkerSet_work _ _ _ fun law => law)
  | checkerAttached new => exact .work (s.checkerSet_work _ _ _ fun law => law)
  | checkerLatched => exact .work (.checker s _ Checker.law_clearCounts)
  | intakeSet halt resume f d low high below => exact .intakeSet halt resume f d low high below
  | intakeResumed => exact .intakeResumed
  | deliverySet f t => exact .deliverySet f t
  | flushed held => exact .flushed held
  | partReset => exact .partReset

/-! ### The lines and the waiting events -/

/-- The levels of the two lines and the waiting events are as they were. -/
structure SameLines (s t : State) : Prop where
  resetLine : t.resetLine = s.resetLine
  deliveryReady : t.deliveryReady = s.deliveryReady
  pending : t.pending = s.pending

theorem SameLines.trans {s t u : State} (h : SameLines s t) (k : SameLines t u) : SameLines s u :=
  ⟨k.resetLine.trans h.resetLine, k.deliveryReady.trans h.deliveryReady, k.pending.trans h.pending⟩

theorem Work.sameLines {s t : State} (h : Work s t) : SameLines s t :=
  ⟨h.frame.resetLine, h.frame.deliveryReady, h.frame.pending⟩

theorem CommandShape.sameLines {s t : State} (h : CommandShape s t) : SameLines s t := by
  cases h with
  | work h => exact h.sameLines
  | configured => rw [State.wake_eq]; exact ⟨rfl, rfl, rfl⟩
  | rampWritten | intakeSet | intakeResumed | deliverySet | flushed | partReset => exact ⟨rfl, rfl, rfl⟩

theorem State.sameLines_issue (s : State) (n : Notice) : SameLines s (s.issue n) := ⟨rfl, rfl, rfl⟩

theorem State.sameLines_intakeArrival (s : State) (rx : List RxWord) : SameLines s (s.intakeArrival rx) := by
  unfold State.intakeArrival
  dsimp only
  split
  · exact ⟨rfl, rfl, rfl⟩
  · cases intakeVerdict rx with
    | damaged d =>
      simp only [State.acceptArrival, State.damagedArrival]
      split <;> exact ⟨rfl, rfl, rfl⟩
    | misdirected => exact ⟨rfl, rfl, rfl⟩
    | good p =>
      simp only [State.acceptArrival]
      split
      · cases p <;> exact ⟨rfl, rfl, rfl⟩
      · simp only [State.overrunDrop]
        split <;> exact ⟨rfl, rfl, rfl⟩

theorem State.sameLines_returnArrival (s : State) (rx : List RxWord) : SameLines s (s.returnArrival rx) := by
  unfold State.returnArrival
  cases returnVerdict rx <;> exact ⟨rfl, rfl, rfl⟩

theorem State.sameLines_actOn (s : State) (a : Answer) : SameLines s (s.actOn a) := by
  cases a <;> exact ⟨rfl, rfl, rfl⟩

end Sys2Proof.Machine
end

section
/-! What an event of one lane can do to the part, in steps that are fine enough for every law of single fields.
`LaneMove l s t` says that t comes from s by such steps of lane l; the laws of the hum profiles, of hold memory, of the run
table, of the gates and timers and of the checker's lane are each kept by every step, so by every event. Unlike `Work`, a
move asks for no free place before a parcel joins the sample queue. -/

namespace Sys2Proof.Machine

theorem sublist_of_eq {α : Type} {xs ys : List α} (h : xs = ys) : xs.Sublist ys := h ▸ .refl xs

/-! ### The checker's own steps -/

/-- Only the checker, but not the lane it is attached to, and the delivery port outside its sample queue may differ. -/
def CheckerOnly (s t : State) : Prop :=
  t = { s with checker := t.checker, delivery := { t.delivery with samples := s.delivery.samples } }
    ∧ t.checker.lane = s.checker.lane

theorem CheckerOnly.refl (s : State) : CheckerOnly s s := ⟨rfl, rfl⟩

theorem CheckerOnly.trans {s t u : State} (h : CheckerOnly s t) (k : CheckerOnly t u) : CheckerOnly s u := by
  obtain ⟨ht, hl⟩ := h
  obtain ⟨ku, kl⟩ := k
  have samples : t.delivery.samples = s.delivery.samples := by rw [ht]
  refine ⟨?_, kl.trans hl⟩
  rw [ku, samples, ht]

theorem CheckerOnly.issue (s : State) (n : Notice) : CheckerOnly s (s.issue n) :=
  ⟨by rw [← s.delivery.samples_issue n]; rfl, rfl⟩

theorem CheckerOnly.setState (s : State) (st : CheckerState) : CheckerOnly s (s.setCheckerState st) := ⟨rfl, rfl⟩

theorem State.checkerSearch_only (s : State) (seq : SeqNum) (d : Word) : CheckerOnly s (s.checkerSearch seq d) := by
  unfold State.checkerSearch
  dsimp only
  split
  · exact (CheckerOnly.setState s _).trans (.issue _ _)
  · exact .setState s _

theorem State.checkerLoss_only (s : State) (l : LaneId) (seq : SeqNum) (d : Word) :
    CheckerOnly s (s.checkerLoss l seq d) := by
  unfold State.checkerLoss
  split
  · exact s.checkerSearch_only _ _
  · exact .refl s

theorem State.countCheckedWord_only (s : State) : CheckerOnly s s.countCheckedWord := by
  have counted : ∀ n b, CheckerOnly s { s with checker := { s.checker with wordCount := n, wordSaturated := b } } :=
    fun _ _ => ⟨rfl, rfl⟩
  unfold State.countCheckedWord
  dsimp only
  split
  · exact .refl s
  · split
    · exact (counted _ _).trans (.issue _ _)
    · exact counted _ _

theorem State.countCheckedError_only (s : State) : CheckerOnly s s.countCheckedError := by
  have counted : ∀ n b, CheckerOnly s { s with checker := { s.checker with errorCount := n, errorSaturated := b } } :=
    fun _ _ => ⟨rfl, rfl⟩
  unfold State.countCheckedError
  dsimp only
  split
  · exact .refl s
  · split
    · exact (counted _ _).trans (.issue _ _)
    · exact counted _ _

theorem State.checkerCompare_only (s : State) (seq : SeqNum) (w e : Word) (h : List CheckResult) :
    CheckerOnly s (s.checkerCompare seq w e h) := by
  unfold State.checkerCompare
  dsimp only
  generalize (if w = e then CheckResult.matched else CheckResult.mismatched) = r
  generalize CheckerState.locked _ _ = st
  have counted := (CheckerOnly.setState s st).trans (State.countCheckedWord_only _)
  generalize (s.setCheckerState st).countCheckedWord = s2 at counted
  have compared : CheckerOnly s (if r = .mismatched then s2.countCheckedError else s2) := by
    split
    · exact counted.trans s2.countCheckedError_only
    · exact counted
  split
  · exact compared.trans (State.checkerSearch_only _ _ _)
  · exact compared

theorem State.checkerWord_only (s : State) (seq : SeqNum) (w : Word) : CheckerOnly s (s.checkerWord seq w) := by
  unfold State.checkerWord
  split
  · exact .setState s _
  · split
    · split
      · exact (CheckerOnly.setState s _).trans (.issue _ _)
      · exact .setState s _
    · exact .setState s _
  · exact s.checkerCompare_only _ _ _ _

theorem State.checkerParcel_only (s : State) (l : LaneId) (seq : SeqNum) (ws : List Sample) :
    CheckerOnly s (s.checkerParcel l seq ws) := by
  unfold State.checkerParcel
  split
  · induction ws generalizing s with
    | nil => exact .refl s
    | cons w ws ih =>
      rename_i attached
      refine (s.checkerWord_only seq w).trans (ih _ ?_)
      rw [(s.checkerWord_only seq w).2]
      exact attached
  · exact .refl s

theorem CheckerOnly.lanes {s t : State} (h : CheckerOnly s t) : t.lanes = s.lanes := by rw [h.1]
theorem CheckerOnly.lane {s t : State} (h : CheckerOnly s t) (m : LaneId) : t.lane m = s.lane m := by
  unfold State.lane; rw [h.lanes]
theorem CheckerOnly.samples {s t : State} (h : CheckerOnly s t) : t.delivery.samples = s.delivery.samples := by rw [h.1]
theorem CheckerOnly.waitList {s t : State} (h : CheckerOnly s t) : t.waitList = s.waitList := by rw [h.1]
theorem CheckerOnly.profiles {s t : State} (h : CheckerOnly s t) : t.profiles = s.profiles := by rw [h.1]

/-! ### The moves of a lane -/

/-- A change of a lane's entry that leaves its record, state, allocation, hum state and gate, takes no run number into its
list and at most stops its timer. -/
structure Lane.Inner (x y : Lane) : Prop where
  config : y.config = x.config
  state : y.state = x.state
  allocation : y.allocation = x.allocation
  timer : y.timer = x.timer ∨ y.timer = x.timer.stop
  hum : y.hum = x.hum
  gate : y.gate = x.gate
  runs : (y.det.runs.map RunRecord.number).Sublist (x.det.runs.map RunRecord.number)

/-- The steps that events of lane l are made of. -/
inductive LaneMove (l : LaneId) : State → State → Prop
  | refl (s : State) : LaneMove l s s
  | trans {s t u : State} : LaneMove l s t → LaneMove l t u → LaneMove l s u
  | entry (s : State) (f : Lane → Lane) : (∀ ln : Lane, ln.Inner (f ln)) → LaneMove l s (s.modLane l f)
  | newRun (s : State) (r : RunRecord) : s.freeRun? = some r.number →
      LaneMove l s (s.modDet l fun d => Detector.resetCalm { d with runs := d.runs ++ [r] })
  | gate (s : State) (b : AssemblyBody) : LaneMove l s (s.modLane l fun ln => { ln with gate := ln.gateAfter b })
  | units (s : State) (fullNoticed : Bool) (repair : RepairUnit) (waitList : List LaneId) (generator : Generator) :
      LaneMove l s
        { s with fullNoticed := fullNoticed, repair := repair, waitList := waitList, generator := generator }
  | issue (s : State) (n : Notice) : LaneMove l s (s.issue n)
  | push (s : State) (p : OutParcel) : LaneMove l s (s.pushSample p)
  | headWaiting (s : State) (b : Bool) : LaneMove l s { s with intake := { s.intake with headWaiting := b } }
  | phase (s : State) (f : LaneHum → LaneHum) : (∀ h, (f h).profile = h.profile) →
      (HumLaw s → HumLaw (s.modHum l f)) → LaneMove l s (s.modHum l f)
  | humBegin (s : State) (p : Option ProfileId) (seq : SeqNum) : LaneMove l s (s.humBegin l p seq)
  | changeState (s : State) (st : LaneState) : (s.lane l).state ≠ .off → st ≠ .off →
      LaneMove l s (s.changeState l st)
  | becomeOff (s : State) : LaneMove l s (s.becomeOff l)
  | enterRunning (s : State) : (s.lane l).state ≠ .off → LaneMove l s (s.enterRunning l)
  | checkerLoss (s : State) (seq : SeqNum) (d : Word) : LaneMove l s (s.checkerLoss l seq d)
  | checkerParcel (s : State) (seq : SeqNum) (ws : List Sample) : (s.lane l).state.isRunning = true →
      (s.lane l).config.route = .check → LaneMove l s (s.checkerParcel l seq ws)

section
variable {l : LaneId}

theorem LaneMove.wake (s : State) (m : LaneId) : LaneMove l s (s.wake m) := by
  rw [State.wake_eq]
  exact .headWaiting s _

theorem LaneMove.joinWait (s : State) : LaneMove l s (s.joinWait l) := by
  rw [State.joinWait_eq]
  exact .units s s.fullNoticed s.repair _ s.generator

theorem LaneMove.leaveWait (s : State) : LaneMove l s (s.leaveWait l) :=
  .units s s.fullNoticed s.repair _ s.generator

theorem LaneMove.repair (s : State) (r : RepairUnit) : LaneMove l s { s with repair := r } :=
  .units s s.fullNoticed r s.waitList s.generator

theorem LaneMove.fullNoticed (s : State) (b : Bool) : LaneMove l s { s with fullNoticed := b } :=
  .units s b s.repair s.waitList s.generator

theorem LaneMove.generator (s : State) (g : Generator) : LaneMove l s { s with generator := g } :=
  .units s s.fullNoticed s.repair s.waitList g

/-- A change of the entry outside the run list. -/
theorem LaneMove.modLane (s : State) (f : Lane → Lane)
    (h : ∀ ln : Lane, ln.Inner (f ln) := by intro _; exact ⟨rfl, rfl, rfl, .inl rfl, rfl, rfl, .refl _⟩) :
    LaneMove l s (s.modLane l f) := .entry s f h

theorem LaneMove.count (s : State) (c : LaneCounter) (n : Nat) : LaneMove l s (s.count l c n) := .modLane s _

/-- A change of the detector that takes no run number into the list. -/
theorem LaneMove.modDet (s : State) (f : Detector → Detector)
    (h : ∀ d : Detector, ((f d).runs.map RunRecord.number).Sublist (d.runs.map RunRecord.number) := by
      intro _; exact .refl _) : LaneMove l s (s.modDet l f) :=
  .entry s _ fun ln => ⟨rfl, rfl, rfl, .inl rfl, rfl, rfl, h ln.det⟩

theorem LaneMove.foldl {α : Type} (f : State → α → State) (h : ∀ s a, LaneMove l s (f s a)) :
    ∀ (xs : List α) (s : State), LaneMove l s (xs.foldl f s)
  | [], s => .refl s
  | a :: xs, s => .trans (h s a) (LaneMove.foldl f h xs (f s a))

end

/-! ### Damage detector -/

theorem Detector.numbers_modRun (d : Detector) (n : Nat) {f : RunRecord → RunRecord}
    (h : ∀ r, (f r).number = r.number) :
    (d.modRun n f).runs.map RunRecord.number = d.runs.map RunRecord.number := by
  simp only [Detector.modRun, List.map_map]
  refine List.map_congr_left fun r _ => ?_
  simp only [Function.comp]
  split
  · exact h r
  · rfl

@[simp] theorem RunRecord.number_grow (r : RunRecord) (limit x : Nat) (cs : Causes) :
    (r.grow limit x cs).number = r.number := by
  unfold RunRecord.grow
  dsimp only
  split <;> rfl

@[simp] theorem RunRecord.number_reopen (r : RunRecord) (limit x : Nat) (cs : Causes) :
    (r.reopen limit x cs).number = r.number := by
  unfold RunRecord.reopen
  dsimp only
  rw [RunRecord.number_grow]

@[simp] theorem RunRecord.number_cut (r : RunRecord) : r.cut.number = r.number := by
  unfold RunRecord.cut
  split <;> rfl

theorem Detector.numbers_cut (d : Detector) : d.cut.runs.map RunRecord.number = d.runs.map RunRecord.number := by
  simp [Detector.cut, Function.comp_def]

theorem Detector.numbers_beginSpan (d : Detector) (cs : Causes) (n : Nat) :
    (d.beginSpan cs n).runs.map RunRecord.number = d.runs.map RunRecord.number := by
  unfold Detector.beginSpan
  split
  · rfl
  · dsimp only
    split
    · rw [Detector.numbers_modRun]
      intro _; rfl
    · rfl

theorem Detector.numbers_beginSpans (spans : List (Causes × Nat)) (d : Detector) :
    (d.beginSpans spans).runs.map RunRecord.number = d.runs.map RunRecord.number := by
  unfold Detector.beginSpans
  induction spans generalizing d with
  | nil => rfl
  | cons x xs ih => rw [List.foldl_cons, ih, Detector.numbers_beginSpan]

theorem State.missRun_move (s : State) (l : LaneId) (seq : SeqNum) : LaneMove l s (s.missRun l seq) := by
  unfold State.missRun
  dsimp only
  split
  · exact .count _ _ _
  · exact ((LaneMove.count s _ _).trans (.fullNoticed _ _)).trans (.issue _ _)

theorem State.openNewRun_move (s : State) (l : LaneId) (seq : SeqNum) (cs : Causes) :
    LaneMove l s (s.openNewRun l seq cs) := by
  unfold State.openNewRun
  split
  · rename_i n free
    have e : (s.modDet l fun d => Detector.resetCalm
        { d with runs := d.runs ++ [newRun d n (s.lane l).nextPosition cs seq] })
        = s.modDet l fun d => Detector.resetCalm
          { d with runs := d.runs ++ [newRun (s.lane l).det n (s.lane l).nextPosition cs seq] } := by
      simp [State.modDet, State.modLane, State.lane]
    dsimp only
    rw [e]
    exact .newRun s _ free
  · exact s.missRun_move _ _

theorem State.openRun_move (s : State) (l : LaneId) (c : LaneConfig) (seq : SeqNum) (cs : Causes) :
    LaneMove l s (s.openRun l c seq cs) := by
  unfold State.openRun
  dsimp only
  split
  · split
    · refine (LaneMove.repair s _).trans (.modDet _ _ fun d => ?_)
      exact sublist_of_eq (d.numbers_modRun _ fun r => r.number_reopen _ _ _)
    · exact s.openNewRun_move _ _ _
  · exact s.openNewRun_move _ _ _

theorem State.joinRun_move (s : State) (l : LaneId) (c : LaneConfig) (seq : SeqNum) (cs : Causes) :
    LaneMove l s (s.joinRun l c seq cs) := by
  unfold State.joinRun
  split
  · exact .modDet _ _ fun d => sublist_of_eq (d.numbers_modRun _ fun r => r.number_grow _ _ _)
  · exact s.openRun_move _ _ _ _

theorem State.reportRelease_move (s : State) (l : LaneId) (r : RunRecord) : LaneMove l s (s.reportRelease l r) := by
  unfold State.reportRelease
  split
  · exact .count _ _ _
  · exact (LaneMove.count s _ _).trans (.issue _ _)
  all_goals exact .refl _

theorem State.releaseRuns_move (s : State) (l : LaneId) : LaneMove l s (s.releaseRuns l) := by
  unfold State.releaseRuns
  dsimp only
  split
  · exact .refl _
  · refine LaneMove.trans ?_ (LaneMove.foldl _ (fun s r => s.reportRelease_move l r) _ _)
    exact (LaneMove.modDet s _ fun d => (List.filter_sublist (l := d.runs)).map _).trans (.fullNoticed _ _)

theorem State.closeRun_move (s : State) (l : LaneId) (c : LaneConfig) (r : RunRecord) (a : Option Sample) :
    LaneMove l s (s.closeRun l c r a) := by
  unfold State.closeRun
  dsimp only
  refine LaneMove.trans ?_ (State.releaseRuns_move _ _)
  generalize r.closedState c.repairLimit (decide (s.repair.queue.length < Config.repairQueueSize)) = st
  have closed : LaneMove l s (s.modDet l fun d => (d.modRun r.number fun r =>
      { r with growing := false, rightAnchor := a, state := st }).resetCalm) :=
    .modDet s _ fun d => sublist_of_eq (d.numbers_modRun _ fun _ => rfl)
  split
  · exact closed.trans (.repair _ _)
  · exact closed

theorem State.calmSample_move (s : State) (l : LaneId) (c : LaneConfig) (v : Sample) :
    LaneMove l s (s.calmSample l c v) := by
  unfold State.calmSample
  dsimp only
  split
  · split
    · exact s.closeRun_move _ _ _ _
    · exact .modDet _ _
  · exact .refl _

theorem State.detect_move (s : State) (l : LaneId) (c : LaneConfig) (seq : SeqNum) (spans : List (Causes × Nat))
    (v : Sample) : LaneMove l s (s.detect l c seq spans v) := by
  unfold State.detect
  dsimp only
  refine (LaneMove.modDet s (fun d => d.beginSpans spans) fun d => sublist_of_eq (d.numbers_beginSpans spans)).trans ?_
  generalize s.modDet l (fun d => d.beginSpans spans) = s1
  refine LaneMove.trans ?_ (.modDet _ _)
  split
  · exact (State.joinRun_move _ _ _ _ _).trans (.modDet _ _)
  · split
    · exact State.joinRun_move _ _ _ _ _
    · exact State.calmSample_move _ _ _ _

/-! ### Marks and the level watch -/

theorem State.spliceLate_move (s : State) (l : LaneId) (seq : SeqNum) : LaneMove l s (s.spliceLate l seq) :=
  (LaneMove.count s _ _).trans (.issue _ _)

theorem State.lateMarks_move (s : State) (l : LaneId) : LaneMove l s (s.lateMarks l) := by
  unfold State.lateMarks
  split
  · exact .refl _
  · exact (LaneMove.modLane s _).trans
      (LaneMove.foldl _ (fun s (m : MarkEntry) => s.spliceLate_move l m.seq) _ _)

theorem State.watch_move (s : State) (l : LaneId) (seq : SeqNum) (ws : List Sample) :
    LaneMove l s (s.watch l seq ws) := by
  unfold State.watch
  split
  · exact (LaneMove.count s _ _).trans (.issue _ _)
  · exact .refl _

/-! ### Hiss gate and output assembly -/

theorem State.gateStep_move (s : State) (l : LaneId) (b : AssemblyBody) : LaneMove l s (s.gateStep l b) := by
  have e : (s.modLane l fun ln => { ln with gate := (s.lane l).gateAfter b })
      = s.modLane l fun ln => { ln with gate := ln.gateAfter b } := by
    simp [State.modLane, State.lane]
  unfold State.gateStep
  dsimp only
  rw [e]
  have stepped : LaneMove l s (s.modLane l fun ln => { ln with gate := ln.gateAfter b }) := .gate s b
  split
  · split
    · exact stepped.trans (.issue _ _)
    · exact stepped
  · exact stepped

theorem State.setAssembly_move (s : State) (l : LaneId) (a : Assembly) : LaneMove l s (s.setAssembly l a) :=
  .modLane _ _

theorem State.placePart_move (s : State) (l : LaneId) : LaneMove l s (s.placePart l) := by
  unfold State.placePart
  split
  · exact ((LaneMove.push s _).trans (State.setAssembly_move _ _ _)).trans (.wake _ _)
  · exact ((LaneMove.push s _).trans (State.setAssembly_move _ _ _)).trans (.wake _ _)
  all_goals exact .refl _

theorem State.placeParts_move : ∀ (n : Nat) (l : LaneId) (s : State), LaneMove l s (State.placeParts n l s)
  | 0, _, s => .refl s
  | n + 1, l, s => by
    unfold State.placeParts
    split
    · exact (s.placePart_move l).trans (State.placeParts_move n l _)
    · exact .refl s

theorem State.placeAssembly_move (s : State) (l : LaneId) : LaneMove l s (s.placeAssembly l) := by
  unfold State.placeAssembly
  dsimp only
  split
  · exact State.placeParts_move _ _ _
  · exact (State.placeParts_move _ _ _).trans (.joinWait _)

theorem State.placeTrailing_move (s : State) (l : LaneId) : LaneMove l s (s.placeTrailing l) := by
  unfold State.placeTrailing
  split
  · exact .refl _
  · dsimp only
    split
    · exact ((LaneMove.modLane s _).trans (State.spliceLate_move _ _ _)).trans (.push _ _)
    · exact (LaneMove.modLane s _).trans (.push _ _)

theorem State.placeTrailings_move : ∀ (n : Nat) (l : LaneId) (s : State), LaneMove l s (State.placeTrailings n l s)
  | 0, _, s => .refl s
  | n + 1, l, s => by
    unfold State.placeTrailings
    split
    · exact (s.placeTrailing_move l).trans (State.placeTrailings_move n l _)
    · exact .refl s

theorem State.placeTrailingMarks_move (s : State) (l : LaneId) : LaneMove l s (s.placeTrailingMarks l) := by
  unfold State.placeTrailingMarks
  dsimp only
  split
  · exact (State.placeTrailings_move _ _ _).trans (.joinWait _)
  · exact State.placeTrailings_move _ _ _

theorem State.completeAssembly_move (s : State) (l : LaneId) (b : AssemblyBody) :
    LaneMove l s (s.completeAssembly l b) :=
  ((s.gateStep_move l b).trans (.modLane _ _)).trans (State.placeAssembly_move _ _)

theorem State.takeWord_move (s : State) (l : LaneId) (r : Route) : LaneMove l s (s.takeWord l r) := by
  unfold State.takeWord State.generatorTaken
  split
  · split
    · exact .generator s _
    · exact .refl _
  · exact .refl _

theorem State.collect_move (s : State) (l : LaneId) (p : HeldParcel) (v : Sample) (t : Treatment) (f : Bool) :
    LaneMove l s (s.collect l p v t f) := by
  unfold State.collect
  dsimp only
  split
  · exact ((State.takeWord_move s l _).trans (State.setAssembly_move _ _ _)).trans (State.completeAssembly_move _ _ _)
  · exact (State.takeWord_move s l _).trans (State.setAssembly_move _ _ _)

/-! ### Departure, drains and stalls -/

theorem State.settle_move (s : State) (l : LaneId) : LaneMove l s (s.settle l) := by
  unfold State.settle
  dsimp only
  split
  · split
    · exact (LaneMove.becomeOff s).trans (.issue _ _)
    · rename_i h
      exact (LaneMove.changeState s _ (by rw [h]; simp) (by simp)).trans (.issue _ _)
    · rename_i h
      exact ((LaneMove.changeState s _ (by rw [h]; simp) (by simp)).trans (.count _ _ _)).trans (.issue _ _)
    all_goals exact .refl _
  · exact .refl _

theorem Lane.overtake_inner (ln : Lane) (x : Nat) : ln.Inner (ln.overtake x) := by
  have numbers : ∀ n, (ln.det.modRun n fun r => r.overtake x).runs.map RunRecord.number
      = ln.det.runs.map RunRecord.number := fun n => ln.det.numbers_modRun n fun _ => rfl
  unfold Lane.overtake
  split
  · split
    · dsimp only
      split
      · exact ⟨rfl, rfl, rfl, .inl rfl, rfl, rfl, sublist_of_eq (numbers _)⟩
      · exact ⟨rfl, rfl, rfl, .inl rfl, rfl, rfl, sublist_of_eq (numbers _)⟩
    · exact ⟨rfl, rfl, rfl, .inl rfl, rfl, rfl, .refl _⟩
  · exact ⟨rfl, rfl, rfl, .inl rfl, rfl, rfl, .refl _⟩

theorem State.departOne_move (s : State) (l : LaneId) : LaneMove l s (s.departOne l) := by
  unfold State.departOne
  split
  · exact .refl _
  · dsimp only
    exact ((((LaneMove.entry s _ fun ln => ln.overtake_inner _).trans (.modLane _ _)).trans (.wake _ _)).trans
      (State.collect_move _ _ _ _ _ _)).trans (State.releaseRuns_move _ _)

theorem State.departUpTo_move : ∀ (n : Nat) (l : LaneId) (s : State), LaneMove l s (State.departUpTo n l s)
  | 0, _, s => .refl s
  | n + 1, l, s => by
    unfold State.departUpTo
    split
    · exact (s.departOne_move l).trans (State.departUpTo_move n l _)
    · exact .refl s

theorem State.depart_move (s : State) (l : LaneId) : LaneMove l s (s.depart l) :=
  ((State.departUpTo_move _ _ _).trans (State.placeTrailingMarks_move _ _)).trans (State.settle_move _ _)

theorem State.flush_move (s : State) (l : LaneId) : LaneMove l s (s.flush l) := by
  unfold State.flush
  dsimp only
  refine (LaneMove.modDet s Detector.cut fun d => sublist_of_eq d.numbers_cut).trans ?_
  generalize s.modDet l Detector.cut = s1
  exact (((State.departUpTo_move _ l s1).trans (State.releaseRuns_move _ l)).trans
    (State.placeTrailingMarks_move _ l)).trans (State.settle_move _ l)

theorem State.beginDrain_move (s : State) (l : LaneId) (t : DrainTarget) (h : (s.lane l).state ≠ .off) :
    LaneMove l s (s.beginDrain l t) := by
  have drained : LaneMove l s (s.changeState l (.draining t)) := .changeState s _ h (by simp)
  unfold State.beginDrain
  dsimp only
  split
  · exact drained.trans (State.settle_move _ _)
  · exact drained.trans (State.flush_move _ _)

theorem State.abandonRepair_move (s : State) (l : LaneId) (n : Nat) : LaneMove l s (s.abandonRepair l n) := by
  unfold State.abandonRepair
  split
  · exact (LaneMove.repair s _).trans (.wake _ _)
  · exact .refl _

theorem State.dropRepairEntry_move (s : State) (l : LaneId) (n : Nat) : LaneMove l s (s.dropRepairEntry l n) :=
  .repair s _

theorem State.takeDeadline_move (s : State) (l : LaneId) (n : Nat) : LaneMove l s (s.takeDeadline l n) := by
  unfold State.takeDeadline
  refine (((s.dropRepairEntry_move l n).trans (State.abandonRepair_move _ l n)).trans ?_).trans (State.depart_move _ _)
  exact .modDet _ _ fun d => sublist_of_eq (d.numbers_modRun n fun _ => rfl)

theorem State.deadlines_move : ∀ (n : Nat) (l : LaneId) (c : Nat) (s : State), LaneMove l s (State.deadlines n l c s)
  | 0, _, _, s => .refl s
  | n + 1, l, c, s => by
    unfold State.deadlines
    split
    · exact (s.takeDeadline_move l _).trans (State.deadlines_move n l c _)
    · exact .refl s

/-! ### Entry -/

/-- A change of the phase index and the restart flag keeps the hum laws when the new index is in range (R31). -/
theorem HumLaw.modHum {s : State} {l : LaneId} {f : LaneHum → LaneHum} (h : HumLaw s)
    (profile : ∀ x, (f x).profile = x.profile)
    (index : ∀ k, (s.lane l).hum.profile = some k → (f (s.lane l).hum).index < (s.profile k).servingBank.length) :
    HumLaw (s.modHum l f) := by
  refine ⟨h.1, fun m k hk => ?_⟩
  by_cases hm : m = l
  · subst hm
    rw [State.lane_modHum_same] at hk ⊢
    rw [profile] at hk
    exact index k hk
  · rw [State.lane_modHum_ne _ _ hm] at hk ⊢
    exact h.2 m k hk

theorem HumBank.length_of_wf {b : HumBank} (h : b.wf = true) : 16 ≤ b.length ∧ b.length ≤ 1024 := by
  simp only [HumBank.wf, Bool.and_eq_true, decide_eq_true_eq] at h
  exact ⟨h.1.2, h.2⟩

theorem HumLaw.bank {s : State} (h : HumLaw s) (k : ProfileId) (which : BankId) : ((s.profile k).bank which).wf = true := by
  cases which
  · exact (h.1 k).1
  · exact (h.1 k).2.1

theorem HumLaw.servingLength {s : State} (h : HumLaw s) (k : ProfileId) : 16 ≤ (s.profile k).servingBank.length :=
  (HumBank.length_of_wf (h.bank k _)).1

theorem HumLaw.restartIndex {s : State} (h : HumLaw s) (k : ProfileId) :
    (s.profile k).restartIndex < (s.profile k).servingBank.length :=
  Nat.mod_lt _ (Nat.lt_of_lt_of_le (by decide) (h.servingLength k))

theorem State.spliceResync_move {s : State} {l : LaneId} {p : Option ProfileId} (hp : (s.lane l).hum.profile = p) :
    LaneMove l s (s.spliceResync l p) := by
  unfold State.spliceResync
  split
  · rename_i k
    split
    · refine .phase s _ (fun _ => rfl) fun law => law.modHum (fun _ => rfl) fun j hj => ?_
      obtain rfl : k = j := Option.some.inj (hp.symm.trans hj)
      exact law.restartIndex k
    · exact .refl s
  · exact .refl s

theorem nextIndex_lt {i len : Nat} (h : i < len) : nextIndex i len < len := by
  unfold nextIndex
  split <;> omega

theorem State.humAdvance_move {s : State} {l : LaneId} {p : Option ProfileId} (hp : (s.lane l).hum.profile = p) :
    LaneMove l s (s.humAdvance l p) := by
  unfold State.humAdvance
  split
  · rename_i k
    refine .phase s _ (fun _ => rfl) fun law => law.modHum (fun _ => rfl) fun j hj => ?_
    obtain rfl : k = j := Option.some.inj (hp.symm.trans hj)
    exact nextIndex_lt (law.2 l k hj)
  · exact .refl s

theorem State.reelStartResync_move (s : State) (l : LaneId) : LaneMove l s (s.reelStartResync l) := by
  unfold State.reelStartResync
  dsimp only
  split
  · split
    · exact .phase s _ (fun _ => rfl) fun law => law.modHum (fun _ => rfl) fun k hk => law.2 l k hk
    · exact .refl s
  · exact .refl s

theorem State.gapFound_move (s : State) (l : LaneId) (n : SeqNum) (d : Nat) : LaneMove l s (s.gapFound l n d) :=
  ((LaneMove.count s _ _).trans (.count _ _ _)).trans (.issue _ _)

theorem State.continuity_move (s : State) (l : LaneId) (n : SeqNum) : LaneMove l s (s.continuity l n) := by
  unfold State.continuity
  dsimp only
  split
  · exact .modLane _ _
  · exact (s.gapFound_move l n _).trans (.modLane _ _)

theorem State.countEntered_move (s : State) (l : LaneId) (n : Nat) : LaneMove l s (s.countEntered l n) :=
  (LaneMove.count s _ _).trans (.count _ _ _)

theorem State.enterSample_move {s : State} {l : LaneId} {e : EntryPlan} (i : Nat) (raw : Sample)
    (hp : (s.lane l).hum.profile = e.config.humProfile) : LaneMove l s (s.enterSample l e i raw) := by
  unfold State.enterSample
  dsimp only
  have resynced : LaneMove l s (if e.spliceOffsets.contains i then s.spliceResync l e.config.humProfile else s)
      ∧ ((if e.spliceOffsets.contains i then s.spliceResync l e.config.humProfile else s).lane l).hum.profile
          = e.config.humProfile := by
    split
    · refine ⟨State.spliceResync_move hp, ?_⟩
      rw [(s.spliceResync_laneWork l _).frame.phaseProfile]
      exact hp
    · exact ⟨.refl s, hp⟩
  generalize (if e.spliceOffsets.contains i then s.spliceResync l e.config.humProfile else s) = s1 at resynced
  exact ((resynced.1.trans (State.humAdvance_move resynced.2)).trans (State.detect_move _ _ _ _ _ _)).trans
    (.modLane _ _)

theorem State.enterSamples_move : ∀ (vs : List Sample) (i : Nat) (l : LaneId) (e : EntryPlan) (s : State),
    (s.lane l).hum.profile = e.config.humProfile → LaneMove l s (State.enterSamples vs i l e s)
  | [], _, _, _, s, _ => .refl s
  | v :: vs, i, l, e, s, hp => by
    refine (State.enterSample_move i v hp).trans (State.enterSamples_move vs (i + 1) l e _ ?_)
    rw [(s.enterSample_laneWork l e i v).frame.phaseProfile]
    exact hp

theorem Lane.phaseProfile_reducePhase (ln : Lane) (k : ProfileId) (len : Nat) :
    (ln.reducePhase k len).hum.profile = ln.hum.profile := by
  unfold Lane.reducePhase
  split <;> rfl

theorem State.phaseProfile_swap (s : State) (k : ProfileId) (a : Option LaneId) (q : SeqNum) (m : LaneId) :
    ((s.swap k a q).lane m).hum.profile = (s.lane m).hum.profile := by
  rw [State.lane_swap, Lane.phaseProfile_reducePhase]

theorem State.phaseProfile_userLeft (s : State) (k : Option ProfileId) (m : LaneId) :
    ((s.userLeft k).lane m).hum.profile = (s.lane m).hum.profile := by
  unfold State.userLeft State.swapIfUnused
  split
  · split
    · exact s.phaseProfile_swap _ _ _ _
    · rfl
  · rfl

/-- A parcel's cancellation begins with the lane turned to the parcel's profile (R39, R40). -/
theorem State.phaseProfile_humBegin (s : State) (l : LaneId) (p : Option ProfileId) (seq : SeqNum) :
    ((s.humBegin l p seq).lane l).hum.profile = p := by
  unfold State.humBegin
  split
  · rename_i k
    dsimp only
    generalize (if (s.profile k).swapPending then s.swap k (some l) seq else s) = s1
    by_cases turned : (s1.lane l).hum.profile = some k
    · simp only [turned, ne_eq, not_true_eq_false, if_false, false_or]
      split
      · rw [State.lane_modHum_same]
      · exact turned
    · simp only [ne_eq, turned, not_false_eq_true, true_or, if_true]
      rw [State.phaseProfile_userLeft, State.lane_modHum_same]
  · rw [State.phaseProfile_userLeft, State.lane_modHum_same]

theorem State.prepareRestore_move (s : State) (l : LaneId) (e : EntryPlan) (ws : List Sample) :
    LaneMove l s (s.prepareRestore l e ws) := by
  unfold State.prepareRestore
  dsimp only
  refine ((s.watch_move l e.seq ws).trans (LaneMove.modLane _ fun ln => ln.resolveSplices e.seq)).trans ?_
  generalize (s.watch l e.seq ws).modLane l (fun ln => ln.resolveSplices e.seq) = s1
  refine (s1.continuity_move l e.seq).trans ?_
  generalize s1.continuity l e.seq = s2
  refine LaneMove.trans ?_ ((State.lateMarks_move _ _).trans (.humBegin _ _ _))
  split
  · exact .modDet _ _
  · exact .refl _

theorem State.enterRestore_move (s : State) (l : LaneId) (seq : SeqNum) (ws : List Sample) (r : Bool) :
    LaneMove l s (s.enterRestore l seq ws r) := by
  unfold State.enterRestore
  refine ((State.prepareRestore_move s l _ ws).trans (State.enterSamples_move _ _ _ _ _ ?_)).trans
    ((State.countEntered_move _ _ _).trans (State.depart_move _ _))
  exact State.phaseProfile_humBegin _ _ _ _

theorem Detector.numbers_plainEntry (d : Detector) (ws : List Sample) :
    (d.plainEntry ws).runs.map RunRecord.number = d.runs.map RunRecord.number := d.numbers_cut

theorem State.enterPlain_move (s : State) (l : LaneId) (seq : SeqNum) (ws : List Sample) (r : Bool) :
    LaneMove l s (s.enterPlain l seq ws r) := by
  unfold State.enterPlain
  dsimp only
  refine ((s.watch_move l seq ws).trans (State.continuity_move _ l seq)).trans ?_
  generalize (s.watch l seq ws).continuity l seq = s1
  refine ((LaneMove.modLane s1 fun ln => ln.resolveSplices seq).trans (State.lateMarks_move _ l)).trans ?_
  generalize (s1.modLane l fun ln => ln.resolveSplices seq).lateMarks l = s2
  refine ((LaneMove.modDet s2 (fun d => d.plainEntry ws) fun d => sublist_of_eq (d.numbers_plainEntry ws)).trans
    (State.releaseRuns_move _ l)).trans ?_
  generalize (s2.modDet l fun d => d.plainEntry ws).releaseRuns l = s3
  refine ((LaneMove.humBegin s3 none seq).trans (LaneMove.modLane _ fun ln => ln.appendParcel seq ws r)).trans ?_
  exact (State.countEntered_move _ l _).trans (State.depart_move _ l)

theorem State.takeEcho_move (s : State) (l : LaneId) (seq : SeqNum) (ws : List Sample) (r : Bool) :
    LaneMove l s (s.takeEcho l seq ws r) :=
  (((s.continuity_move l seq).trans (.modLane _ _)).trans (State.countEntered_move _ _ _)).trans (.push _ _)

/-- What a CHECK lane's parcel does before the checker takes its words leaves the lane's state and record. -/
theorem State.takeCheck_move {s : State} {l : LaneId} (seq : SeqNum) (ws : List Sample)
    (running : (s.lane l).state.isRunning = true) (check : (s.lane l).config.route = .check) :
    LaneMove l s (s.takeCheck l seq ws) := by
  have counted : LaneWork l s (((s.continuity l seq).modLane l fun ln => ln.advance ws.length).countEntered l ws.length) :=
    ((s.continuity_laneWork l seq).trans (.entry _ _)).trans (State.countEntered_laneWork _ _ _)
  have moved : LaneMove l s (((s.continuity l seq).modLane l fun ln => ln.advance ws.length).countEntered l ws.length) :=
    ((s.continuity_move l seq).trans (.modLane _ _)).trans (State.countEntered_move _ _ _)
  unfold State.takeCheck
  dsimp only
  generalize ((s.continuity l seq).modLane l fun ln => ln.advance ws.length).countEntered l ws.length = s1
    at counted moved ⊢
  refine moved.trans ?_
  have same : ∀ u : State, u.lane l = s1.lane l → LaneMove l u (u.checkerParcel l seq ws) := fun u hu =>
    .checkerParcel u seq ws (by rw [hu, counted.frame.state]; exact running)
      (by rw [hu, counted.work.frame.config]; exact check)
  split
  · exact (LaneMove.checkerLoss s1 seq 2).trans (same _ ((s1.checkerLoss_only l seq 2).lane l))
  · exact same s1 rfl

/-! ### The answer to an offer -/

theorem State.takeParcel_move {s : State} {l : LaneId} (seq : SeqNum) (ws : List Sample) (r : Bool)
    (running : (s.lane l).config.route = .check → (s.lane l).state.isRunning = true) :
    LaneMove l s (s.takeParcel l seq ws r) := by
  unfold State.takeParcel
  split
  · exact s.enterRestore_move _ _ _ _
  · exact s.enterPlain_move _ _ _ _
  · exact s.enterPlain_move _ _ _ _
  · exact s.enterPlain_move _ _ _ _
  · exact s.takeEcho_move _ _ _ _
  · rename_i check
    exact State.takeCheck_move seq ws (running check) check

theorem State.lane_changeState_staying {s : State} {l : LaneId} {st : LaneState}
    (h : (s.lane l).state.isRunning = false ∨ st.isRunning = true) (m : LaneId) :
    (s.changeState l st).lane m =
      if m = l then
        { s.lane l with state := st, timer := if st = .running false then (s.lane l).timer else (s.lane l).timer.stop }
      else s.lane m := by
  rw [State.changeState_staying s l st h, State.lane_wake]
  by_cases hm : m = l
  · subst hm
    rw [State.lane_modLane_same, if_pos rfl]
  · rw [State.lane_modLane_ne s _ hm, if_neg hm]

@[simp] theorem State.lanes_generatorReel (s : State) (l : LaneId) : (s.generatorReel l).lanes = s.lanes := by
  unfold State.generatorReel
  split <;> rfl

/-- The lanes as lane l enters RUNNING (R8): its own entry is started, the others are as they were. -/
theorem State.lane_enterRunning (s : State) (l m : LaneId) :
    (s.enterRunning l).lane m = if m = l then (s.lane l).started else s.lane m := by
  have reel : ∀ (u : State), (u.generatorReel l).lane m = u.lane m := fun u => by
    unfold State.lane
    rw [State.lanes_generatorReel]
  unfold State.enterRunning
  dsimp only
  by_cases hm : m = l
  · subst hm
    rw [if_pos rfl]
    by_cases armed : (s.lane m).state = .armed
    · simp only [armed, decide_true, if_true]
      rw [reel, State.lane_modLane_same, State.lane_modLane_same, State.lane_changeState_staying (.inr rfl), if_pos rfl]
      simp [Lane.started, armed, Lane.freshReel, Lane.reloadTimer, Detector.clearHistory]
    · simp only [armed, decide_false, Bool.false_eq_true, if_false]
      rw [State.lane_modLane_same, State.lane_changeState_staying (.inr rfl), if_pos rfl]
      simp [Lane.started, armed, Lane.reloadTimer, Detector.clearHistory]
  · rw [if_neg hm]
    split
    · rw [reel, State.lane_modLane_ne _ _ hm, State.lane_modLane_ne _ _ hm,
        State.lane_changeState_staying (.inr rfl), if_neg hm]
    · rw [State.lane_modLane_ne _ _ hm, State.lane_changeState_staying (.inr rfl), if_neg hm]

theorem State.startWith_move {s : State} {l : LaneId} (seq : SeqNum) (ws : List Sample) (r : Bool)
    (h : (s.lane l).state ≠ .off) : LaneMove l s (s.startWith l seq ws r).2 := by
  unfold State.startWith
  dsimp only
  split
  · exact (LaneMove.count _ _ _).trans (.issue _ _)
  · split
    · exact .refl _
    · refine (LaneMove.enterRunning s h).trans (State.takeParcel_move _ _ _ fun _ => ?_)
      rw [State.lane_enterRunning, if_pos rfl]
      rfl

theorem State.takeOrWait_move {s : State} {l : LaneId} (seq : SeqNum) (ws : List Sample)
    (running : (s.lane l).state.isRunning = true) : LaneMove l s (s.takeOrWait l seq ws).2 := by
  have line (hr : (s.lane l).config.route ≠ .check) :
      LaneMove l s (let s1 := State.deadlines (s.lane l).det.runs.length l ws.length s
        if (s1.lane l).room ws.length then (Answer.take, s1.takeParcel l seq ws false) else (.wait, s1)).2 := by
    have moved := State.deadlines_move (s.lane l).det.runs.length l ws.length s
    have w := State.deadlines_work (s.lane l).det.runs.length l ws.length s
    dsimp only
    split
    · refine moved.trans (State.takeParcel_move _ _ _ fun check => ?_)
      rw [w.frame.config] at check
      exact absurd check hr
    · exact moved
  unfold State.takeOrWait
  split
  · exact State.takeParcel_move _ _ _ fun _ => running
  · split
    · exact State.takeParcel_move _ _ _ fun _ => running
    · exact .refl _
  all_goals
    rename_i h
    exact line (by rw [h]; decide)

theorem State.answerSamples_move (s : State) (l : LaneId) (seq : SeqNum) (ws : List Sample) :
    LaneMove l s (s.answerSamples l seq ws).2 := by
  unfold State.answerSamples
  split
  · exact .count _ _ _
  · rename_i armed
    split
    · exact .count _ _ _
    · exact State.startWith_move _ _ _ (by rw [armed]; simp)
  · rename_i running
    unfold State.answerRunning
    dsimp only
    split
    · exact (LaneMove.count _ _ _).trans (.issue _ _)
    · split
      · exact (LaneMove.count _ _ _).trans (.issue _ _)
      · exact State.takeOrWait_move _ _ (by rw [running]; rfl)
  · exact .refl _
  · rename_i stalled
    exact State.startWith_move _ _ _ (by rw [stalled]; simp)
  · exact .count _ _ _
  · exact .refl _

/-! ### Marks -/

theorem State.placeMark_move (s : State) (l : LaneId) (m : MarkEntry) : LaneMove l s (s.placeMark l m) := by
  unfold State.placeMark
  dsimp only
  split
  · exact ((LaneMove.modLane _ _).trans (.count _ _ _)).trans (State.spliceLate_move _ _ _)
  · exact (LaneMove.modLane _ _).trans (.count _ _ _)

theorem State.offerMark_move (s : State) (l : LaneId) (m : MarkEntry) : LaneMove l s (s.offerMark l m).2 := by
  unfold State.offerMark
  split
  · exact s.placeMark_move l m
  · exact (LaneMove.count _ _ _).trans (.issue _ _)

theorem State.forwardMark_move (s : State) (l : LaneId) (m : MarkEntry) : LaneMove l s (s.forwardMark l m) :=
  (LaneMove.push s _).trans (.count _ _ _)

theorem State.state_forwardMark (s : State) (l : LaneId) (m : MarkEntry) :
    ((s.forwardMark l m).lane l).state = (s.lane l).state := by
  unfold State.forwardMark
  rw [State.lane_count_same, State.lane_pushSample]
  rfl

theorem State.reelEvent_move {s : State} {l : LaneId} (k : MarkKind) (h : (s.lane l).state ≠ .off) :
    LaneMove l s (s.reelEvent l k) := by
  unfold State.reelEvent
  split
  · exact s.reelStartResync_move l
  · exact s.beginDrain_move l .armed h
  all_goals exact .refl _

theorem State.markRunning_move {s : State} {l : LaneId} (m : MarkEntry) (h : (s.lane l).state ≠ .off) :
    LaneMove l s (s.markRunning l m).2 := by
  unfold State.markRunning
  split
  · refine (s.offerMark_move l m).trans (State.reelEvent_move _ ?_)
    rw [(s.offerMark_laneWork l m).frame.state]
    exact h
  · split
    · refine (s.forwardMark_move l m).trans (State.reelEvent_move _ ?_)
      rw [State.state_forwardMark]
      exact h
    · exact .refl _

theorem State.answerMark_move (s : State) (l : LaneId) (m : MarkEntry) : LaneMove l s (s.answerMark l m).2 := by
  unfold State.answerMark
  split
  · exact .count _ _ _
  · rename_i armed
    unfold State.markArmed
    split
    · split
      · refine (LaneMove.enterRunning s (by rw [armed]; simp)).trans (State.markRunning_move m ?_)
        rw [State.lane_enterRunning, if_pos rfl]
        simp [Lane.started]
      · exact .refl _
    · exact .count _ _ _
  · rename_i running
    exact State.markRunning_move m (by rw [running]; simp)
  · exact .refl _
  · rename_i stalled
    unfold State.markStalled
    split
    · have forwarded := s.forwardMark_move l m
      dsimp only
      split
      · exact forwarded
      · refine (forwarded.trans (.changeState _ .armed ?_ (by simp))).trans (.issue _ _)
        rw [State.state_forwardMark, stalled]
        simp
      · exact forwarded.trans (State.spliceLate_move _ _ _)
      · exact forwarded
      · exact forwarded
    · exact .refl _
  · exact .count _ _ _
  · exact .refl _

theorem State.answer_move (s : State) (p : InParcel) : LaneMove p.lane s (s.answer p).2 := by
  cases p with
  | samples l seq ws => exact s.answerSamples_move l seq ws
  | mark l k seq o v => exact s.answerMark_move l _

/-! ### The wait list, the timers and the repair unit -/

theorem State.serveWait_move (s : State) (l : LaneId) : LaneMove l s (s.serveWait l) := by
  have placed : LaneMove l s (s.placeNextPart l) := by
    unfold State.placeNextPart
    split
    · split
      · exact (s.placeTrailing_move l).trans (State.settle_move _ _)
      · exact s.settle_move l
    · exact (s.placePart_move l).trans (State.settle_move _ _)
  unfold State.serveWait
  dsimp only
  split
  · exact placed
  · exact (placed.trans (.leaveWait _)).trans (State.depart_move _ _)

theorem State.expireLane_move {s : State} {l : LaneId} (h : (s.lane l).state ≠ .off) :
    LaneMove l s (s.expireLane l) :=
  (LaneMove.changeState s _ h (by simp)).trans (State.flush_move _ _)

theorem Lane.repairRun_inner (ln : Lane) (n : Nat) : ln.Inner (ln.repairRun n) := by
  unfold Lane.repairRun
  split
  · exact ⟨rfl, rfl, rfl, .inl rfl, rfl, rfl, sublist_of_eq (ln.det.numbers_modRun n fun _ => rfl)⟩
  · exact ⟨rfl, rfl, rfl, .inl rfl, rfl, rfl, .refl _⟩

/-- The take of the repair unit is a move of the lane whose run it is, or nothing. -/
theorem State.takeRepair_move (s : State) : ∃ l, LaneMove l s s.takeRepair := by
  unfold State.takeRepair
  split
  · rename_i e rest _ _
    refine ⟨e.lane, (LaneMove.repair s _).trans (.modDet _ _ fun d => ?_)⟩
    exact sublist_of_eq (d.numbers_modRun _ fun _ => rfl)
  · exact ⟨0, .refl s⟩
  · exact ⟨0, .refl s⟩

theorem State.completeRepair_move (s : State) : ∃ l, LaneMove l s s.completeRepair := by
  unfold State.completeRepair
  split
  · exact ⟨0, .refl s⟩
  · rename_i e _
    refine ⟨e.lane, (LaneMove.entry s _ fun ln => ln.repairRun_inner e.run).trans ?_⟩
    dsimp only
    exact ((LaneMove.repair _ _).trans (.wake _ _)).trans (State.depart_move _ _)

end Sys2Proof.Machine
end

section
/-! The laws of single fields across the moves of a lane, and what is left to show of a law of the lanes, profiles, ramps and
checker for every step to keep it (`step_keeps_blocks`). -/

namespace Sys2Proof.Machine

/-! ### What a step leaves to the blocks -/

/-- The lanes, the profiles, the ramp tables and the checker are as they were. -/
structure SameBlocks (s t : State) : Prop where
  lanes : t.lanes = s.lanes
  profiles : t.profiles = s.profiles
  ramps : t.ramps = s.ramps
  checker : t.checker = s.checker

theorem SameBlocks.lane {s t : State} (h : SameBlocks s t) (m : LaneId) : t.lane m = s.lane m := by
  unfold State.lane
  rw [h.lanes]

theorem SameBlocks.profile {s t : State} (h : SameBlocks s t) (k : ProfileId) : t.profile k = s.profile k := by
  unfold State.profile
  rw [h.profiles]

/-- The effects of commands that are neither moves of a lane nor outside the blocks. -/
inductive CommandRest (s : State) : State → Prop
  | configured (l : LaneId) (c : LaneConfig) : ConfigInRange c →
      ((s.lane l).state = .off ∨ (s.lane l).config.changesFixed c = false) →
      CommandRest s ((s.modLane l fun ln => { ln with config := c }).wake l)
  | armed (l : LaneId) : (s.lane l).state = .off → (s.lane l).config.allocation ≤ s.freePlaces →
      CommandRest s (s.armLane l)
  | bankWritten (k : ProfileId) (which : BankId) (i : Nat) (vs : List Sample) :
      i + vs.length ≤ Config.bankEntries → (s.profile k).ownership which = .loading →
      CommandRest s (s.modProfile k fun p => p.setBank which ((p.bank which).write i vs))
  | humSet (k : ProfileId) (n f : Nat) (r : ResyncSource) : (n ≠ 0 → 16 ≤ n ∧ n ≤ 1024) →
      (n ≠ 0 → (s.profile k).swapPending = false) → f ≤ 1023 →
      CommandRest s (s.modProfile k fun p =>
        { (if n = 0 then p else p.setLoadingLength n) with startPhase := f, resync := r })
  | humCommitted (k : ProfileId) : s.hasUser k = true →
      CommandRest s (s.modProfile k fun p => { p with swapPending := true })
  | humSwapped (k : ProfileId) : s.hasUser k = false →
      CommandRest s ((s.modProfile k fun p => { p with swapPending := true }).swap k none 0)
  | resynced (k : ProfileId) : CommandRest s { s with lanes := s.lanes.map fun (ln : Lane) => ln.markRestart k }
  | rampWritten (t : RampId) (g : Vector Nat 16) : (∀ x ∈ g.toList, x ≤ 256) →
      CommandRest s { s with ramps := s.ramps.set t g }
  | checkerSet (c : Checker) (seq : SeqNum) (d : Word) : CommandRest s (State.checkerSearch { s with checker := c } seq d)
  | checkerLatched : CommandRest s { s with checker := s.checker.clearCounts }
  | partReset : CommandRest s s.resetPart

theorem State.abort_move (s : State) (l : LaneId) : LaneMove l s (s.abort l) := by
  have dropped (u : State) : LaneMove l u (u.dropRuns l) := by
    unfold State.dropRuns
    split
    · exact .refl u
    · exact (LaneMove.modDet u (fun d => { d with runs := [] }) fun _ => List.nil_sublist _).trans (.fullNoticed _ _)
  unfold State.abort
  refine (LaneMove.repair s (s.dropRepairWork l).repair).trans ?_
  refine (dropped _).trans ?_
  refine (LaneMove.modLane _ Lane.discardWork fun ln => ⟨rfl, rfl, rfl, .inr rfl, rfl, rfl, .refl _⟩).trans ?_
  exact (LaneMove.leaveWait _).trans (.becomeOff _)

theorem LaneState.ne_off_of_isRunning {st : LaneState} (h : st.isRunning = true) : st ≠ .off := by
  rintro rfl
  contradiction

theorem CommandEffect.moveOrRest {s t : State} (h : CommandEffect s t) :
    (∃ l, LaneMove l s t) ∨ SameBlocks s t ∨ CommandRest s t := by
  have same : ∀ {u : State}, u.lanes = s.lanes → u.profiles = s.profiles → u.ramps = s.ramps → u.checker = s.checker →
      (∃ l, LaneMove l s u) ∨ SameBlocks s u ∨ CommandRest s u := fun a b c d => .inr (.inl ⟨a, b, c, d⟩)
  cases h with
  | kept => exact same rfl rfl rfl rfl
  | configured l c range fixed => exact .inr (.inr (.configured l c range fixed))
  | armed l off space => exact .inr (.inr (.armed l off space))
  | stopped l _ => exact .inl ⟨l, (LaneMove.becomeOff s).trans (.issue _ _)⟩
  | drained l running => exact .inl ⟨l, s.beginDrain_move l .off (LaneState.ne_off_of_isRunning running)⟩
  | retargeted l draining => exact .inl ⟨l, .changeState s _ (by rw [draining]; simp) (by simp)⟩
  | aborted l _ => exact .inl ⟨l, s.abort_move l⟩
  | countersCleared l => exact .inl ⟨l, .modLane s _⟩
  | bankWritten k which i vs run loading => exact .inr (.inr (.bankWritten k which i vs run loading))
  | humSet k n f r length free phase => exact .inr (.inr (.humSet k n f r length free phase))
  | humCommitted k user => exact .inr (.inr (.humCommitted k user))
  | humSwapped k user => exact .inr (.inr (.humSwapped k user))
  | resynced k => exact .inr (.inr (.resynced k))
  | rampWritten t g gains => exact .inr (.inr (.rampWritten t g gains))
  | generatorSet g => exact same rfl rfl rfl rfl
  | patternSet p => exact .inr (.inr (.checkerSet _ _ _))
  | checkerAttached new => exact .inr (.inr (.checkerSet _ _ _))
  | checkerLatched => exact .inr (.inr .checkerLatched)
  | intakeSet halt resume f d _ _ _ => exact same rfl rfl rfl rfl
  | intakeResumed => exact same rfl rfl rfl rfl
  | deliverySet f t => exact same rfl rfl rfl rfl
  | flushed _ => exact same rfl rfl rfl rfl
  | partReset => exact .inr (.inr .partReset)

/-- A parcel that arrives at most reloads its lane's timer (R25, R137). -/
theorem State.intakeArrival_blocks (s : State) (rx : List RxWord) :
    SameBlocks s (s.intakeArrival rx) ∨ ∃ l, SameBlocks (s.modLane l Lane.reloadTimer) (s.intakeArrival rx) := by
  unfold State.intakeArrival
  dsimp only
  split
  · exact .inl ⟨rfl, rfl, rfl, rfl⟩
  · cases intakeVerdict rx with
    | damaged d =>
      simp only [State.acceptArrival, State.damagedArrival]
      split <;> exact .inl ⟨rfl, rfl, rfl, rfl⟩
    | misdirected => exact .inl ⟨rfl, rfl, rfl, rfl⟩
    | good p =>
      simp only [State.acceptArrival]
      split
      · cases p with
        | samples l seq ws => exact .inr ⟨l, rfl, rfl, rfl, rfl⟩
        | mark l k seq o v => exact .inl ⟨rfl, rfl, rfl, rfl⟩
      · simp only [State.overrunDrop]
        split <;> exact .inl ⟨rfl, rfl, rfl, rfl⟩

theorem State.returnArrival_blocks (s : State) (rx : List RxWord) : SameBlocks s (s.returnArrival rx) := by
  unfold State.returnArrival
  cases returnVerdict rx <;> exact ⟨rfl, rfl, rfl, rfl⟩

theorem State.actOn_blocks (s : State) (a : Answer) : SameBlocks s (s.actOn a) := by
  cases a <;> exact ⟨rfl, rfl, rfl, rfl⟩

/-- The part after its placement wait list has been served with a freed place (R104). -/
def State.waitServed (s : State) : State :=
  match s.waitList with
  | [] => s
  | l :: _ => s.serveWait l

/-- The end of a sample parcel's transmission: the head leaves, the wait list is served, and a place still free makes a new
offer due (R152). -/
theorem State.endSampleTransmission_eq (s : State) :
    s.endSampleTransmission =
      let u := State.waitServed { s with delivery := s.delivery.endSample }
      if u.sampleRoom then u.wakeAny else u := rfl

theorem State.waitServed_move (s : State) : ∃ l, LaneMove l s s.waitServed := by
  unfold State.waitServed
  split
  · exact ⟨0, .refl s⟩
  · exact ⟨_, s.serveWait_move _⟩

/-- The end of a transmission changes the blocks by a move of the lane that is served, if one is (R152). -/
theorem State.endTransmission_blocks (s : State) :
    ∃ l u v, SameBlocks s u ∧ LaneMove l u v ∧ SameBlocks v s.endTransmission := by
  have same : ∀ v : State, SameBlocks v v := fun v => ⟨rfl, rfl, rfl, rfl⟩
  unfold State.endTransmission
  split
  · exact ⟨0, s, s, same s, .refl s, same s⟩
  · exact ⟨0, s, s, same s, .refl s, rfl, rfl, rfl, rfl⟩
  · obtain ⟨l, moved⟩ := State.waitServed_move { s with delivery := s.delivery.endSample }
    refine ⟨l, { s with delivery := s.delivery.endSample }, _, ⟨rfl, rfl, rfl, rfl⟩, moved, ?_⟩
    rw [State.endSampleTransmission_eq]
    dsimp only
    split
    · exact ⟨rfl, rfl, rfl, rfl⟩
    · exact same _

/-- A law of the lanes, profiles, ramps and checker is kept by every step if it holds after a reset and is kept by the tick,
by the moves of a lane, by the reload of a timer and by the commands that are none of these. -/
theorem step_keeps_blocks {P : State → Prop} (same : ∀ {s t : State}, SameBlocks s t → P s → P t)
    (move : ∀ {l : LaneId} {s t : State}, LaneMove l s t → P s → P t)
    (rest : ∀ {s t : State}, CommandRest s t → P s → P t)
    (reload : ∀ (s : State) (l : LaneId), P s → P (s.modLane l Lane.reloadTimer))
    (tick : ∀ s : State, P s → P { s with lanes := s.lanes.map Lane.tick })
    (reset : P State.reset) {s t : State} (h : step s = .next t) (hs : P s) : P t := by
  refine step_keeps (P := P) (fun s q => same (s := s) ⟨rfl, rfl, rfl, rfl⟩) (fun s t effect hs => ?_) h hs
  obtain _ | level | effect := effect
  · unfold State.tick
    split
    · exact hs
    · exact same (s := { s with lanes := s.lanes.map Lane.tick }) ⟨rfl, rfl, rfl, rfl⟩ (tick s hs)
  · exact same (s := State.reset) ⟨rfl, rfl, rfl, rfl⟩ reset
  obtain level | _ | ⟨_, effect⟩ := effect
  · unfold State.readyChanged
    split <;> exact same (s := s) ⟨rfl, rfl, rfl, rfl⟩ hs
  · exact hs
  cases effect with
  | kept => exact hs
  | taken p queue r _ _ lawful =>
    have begun : P (s.beginTake queue) := same (s := s) ⟨rfl, rfl, rfl, rfl⟩ hs
    have done : P r.after := by
      obtain ⟨l, moved⟩ | kept | other := lawful.effect.moveOrRest
      · exact move moved begun
      · exact same kept begun
      · exact rest other begun
    exact same (s := r.after) ⟨rfl, rfl, rfl, rfl⟩ done
  | intakeArrived rx _ =>
    obtain kept | ⟨l, reloaded⟩ := s.intakeArrival_blocks rx
    · exact same kept hs
    · exact same reloaded (reload s l hs)
  | intakeUp | intakeDown | paceEnded | deliveryUp | deliveryDown | started | batchExpired =>
    exact same (s := s) ⟨rfl, rfl, rfl, rfl⟩ hs
  | offered p _ _ => exact same (State.actOn_blocks _ _) (move (s.answer_move p) hs)
  | returnArrived rx => exact same (s.returnArrival_blocks rx) hs
  | ended =>
    obtain ⟨l, u, v, before, moved, after⟩ := s.endTransmission_blocks
    exact same after (move moved (same before hs))
  | starved l running => exact move (State.expireLane_move (by rw [running]; simp)) hs
  | repairTaken =>
    obtain ⟨l, moved⟩ := s.takeRepair_move
    exact move moved hs
  | repairCompleted =>
    obtain ⟨l, moved⟩ := s.completeRepair_move
    exact move moved hs

end Sys2Proof.Machine
end

section
/-! The laws of the ports: the intake pace and the delivery pace (R141, R153), the transmission in progress (R148, R160) and
the parcels of the intake queue (R134). A move of a lane leaves the ports but for what joins the two delivery queues. -/

namespace Sys2Proof.Machine

/-! ### What the moves of a lane leave of the ports -/

/-- The lines, the ramps, the control unit, the waiting events, the settings of the ports, the intake queue and the records
are as they were; parcels have joined the delivery queues, and nothing has left them. -/
structure Outline (s t : State) : Prop where
  lines : SameLines s t
  ramps : t.ramps = s.ramps
  control : t.control = s.control
  intake : t.intake = { s.intake with headWaiting := t.intake.headWaiting }
  settings : s.delivery.SameSettings t.delivery
  config : ∀ m : LaneId, (t.lane m).config = (s.lane m).config
  samples : s.delivery.samples <+: t.delivery.samples
  messages : s.delivery.messages <+: t.delivery.messages

theorem Outline.trans {s t u : State} (h : Outline s t) (k : Outline t u) : Outline s u where
  lines := h.lines.trans k.lines
  ramps := k.ramps.trans h.ramps
  control := k.control.trans h.control
  intake := by rw [k.intake, h.intake]
  settings := h.settings.trans k.settings
  config m := (k.config m).trans (h.config m)
  samples := h.samples.trans k.samples
  messages := h.messages.trans k.messages

theorem DeliveryPort.messages_commitDue (d : DeliveryPort) : d.messages <+: d.commitDue.messages := by
  unfold DeliveryPort.commitDue
  split
  · exact List.prefix_append _ _
  · exact List.prefix_refl _

theorem DeliveryPort.messages_issue (d : DeliveryPort) (n : Notice) : d.messages <+: (d.issue n).messages := by
  unfold DeliveryPort.issue
  split
  · split
    · exact (d.join n).messages_commitDue
    · exact List.prefix_refl _
  · exact List.prefix_refl _

theorem Work.messages {s t : State} (h : Work s t) : s.delivery.messages <+: t.delivery.messages := by
  induction h with
  | refl | blocks | checker | push | headWaiting => exact List.prefix_refl _
  | trans _ _ h k => exact h.trans k
  | issue s n => exact s.delivery.messages_issue n

theorem Work.outline {s t : State} (h : Work s t) : Outline s t where
  lines := h.sameLines
  ramps := h.frame.ramps
  control := h.frame.control
  intake := h.frame.intake
  settings := h.frame.settings
  config := h.frame.config
  samples := by
    obtain ⟨ps, grown⟩ := h.frame.samples
    exact ⟨ps, grown.symm⟩
  messages := h.messages

theorem LaneMove.outline {l : LaneId} {s t : State} (h : LaneMove l s t) : Outline s t := by
  induction h with
  | refl s => exact (Work.refl s).outline
  | trans _ _ h k => exact h.trans k
  | entry s f inner => exact (Work.modLane s l f fun ln => (inner ln).config).outline
  | newRun s r _ => exact (Work.modDet s l _).outline
  | gate s b => exact (Work.modLane s l _).outline
  | units s full repair wait generator =>
    exact (Work.blocks s s.lanes s.profiles full repair wait generator fun _ => rfl).outline
  | issue s n => exact (Work.issue s n).outline
  | push s p =>
    exact ⟨⟨rfl, rfl, rfl⟩, rfl, rfl, rfl, .refl _, fun _ => rfl, List.prefix_append _ _, List.prefix_refl _⟩
  | headWaiting s b => exact (Work.headWaiting s b).outline
  | phase s f _ _ => exact (Work.modHum s l f).outline
  | humBegin s p seq => exact (s.humBegin_work l p seq).outline
  | changeState s st _ _ => exact (s.changeState_work l st).outline
  | becomeOff s => exact (s.becomeOff_work l).outline
  | enterRunning s _ => exact (s.enterRunning_work l).outline
  | checkerLoss s seq d => exact (s.checkerLoss_work l seq d).outline
  | checkerParcel s seq ws _ _ => exact (s.checkerParcel_work l seq ws).outline

/-! ### Arrivals -/

/-- A list of notices issued one after another (R156). -/
def DeliveryPort.issueAll (d : DeliveryPort) (ns : List Notice) : DeliveryPort := ns.foldl DeliveryPort.issue d

/-- Of the delivery port an arrival only issues notices (R134, R135, R138). -/
theorem State.delivery_intakeArrival (s : State) (rx : List RxWord) :
    ∃ ns, (s.intakeArrival rx).delivery = s.delivery.issueAll ns := by
  unfold State.intakeArrival
  dsimp only
  split
  · exact ⟨[], rfl⟩
  · cases intakeVerdict rx with
    | damaged d =>
      simp only [State.acceptArrival, State.damagedArrival]
      split
      · exact ⟨[_, _], rfl⟩
      · exact ⟨[_], rfl⟩
    | misdirected => exact ⟨[], rfl⟩
    | good p =>
      simp only [State.acceptArrival]
      split
      · cases p <;> exact ⟨[], rfl⟩
      · simp only [State.overrunDrop]
        split
        · exact ⟨[], rfl⟩
        · exact ⟨[_], rfl⟩

/-- At an arrival the intake queue stays, or a well-formed parcel joins it into a free place (R137). -/
theorem State.queue_intakeArrival (s : State) (rx : List RxWord) :
    (s.intakeArrival rx).intake.queue = s.intake.queue
      ∨ ∃ p, intakeVerdict rx = .good p ∧ s.intake.queue.length < 48
          ∧ (s.intakeArrival rx).intake.queue = s.intake.queue ++ [p] := by
  unfold State.intakeArrival
  dsimp only
  split
  · exact .inl rfl
  · cases intakeVerdict rx with
    | damaged d =>
      simp only [State.acceptArrival, State.damagedArrival]
      split
      · simp only [State.haltIntake, IntakePort.repace_eq]
        exact .inl rfl
      · exact .inl rfl
    | misdirected => exact .inl rfl
    | good p =>
      simp only [State.acceptArrival]
      split
      · rename_i room
        refine .inr ⟨p, rfl, room, ?_⟩
        cases p <;> simp only [State.admitParcel, State.reloadFor, IntakePort.admitted, IntakePort.repace_eq] <;> rfl
      · simp only [State.overrunDrop]
        split <;> exact .inl rfl

/-! ### The intake pace -/

/-- The law of R141 on the intake port alone. -/
def IntakePort.PaceInOrder (p : IntakePort) : Prop :=
  (8 ≤ p.haltLevel ∧ p.haltLevel ≤ 48 ∧ p.resumeLevel < p.haltLevel)
    ∧ (p.port = .halted ∨ p.haltLevel ≤ p.queue.length → p.pace = .stop)
    ∧ (p.port = .accepting ∧ p.queue.length ≤ p.resumeLevel → p.pace = .go)

theorem intakePaceLaw_iff (s : State) : IntakePaceLaw s ↔ s.intake.PaceInOrder := Iff.rfl

/-- The pace set again is the one R141 says, at any levels in range. -/
theorem IntakePort.paceInOrder_repace {p : IntakePort}
    (levels : 8 ≤ p.haltLevel ∧ p.haltLevel ≤ 48 ∧ p.resumeLevel < p.haltLevel) : p.repace.PaceInOrder := by
  rw [IntakePort.repace_eq]
  refine ⟨levels, fun stopped => if_pos stopped, ?_⟩
  rintro ⟨accepting, low⟩
  obtain ⟨_, _, below⟩ := levels
  have running : ¬(p.port = .halted ∨ p.haltLevel ≤ p.queue.length) := by
    rw [show p.port = .accepting from accepting]
    have : p.queue.length ≤ p.resumeLevel := low
    simp only [reduceCtorEq, false_or]
    omega
  exact (if_neg running).trans (if_pos low)

theorem IntakePort.paceInOrder_startPace {p : IntakePort} (h : p.PaceInOrder) : p.startPace.PaceInOrder := by
  rw [IntakePort.startPace_eq]
  exact h

theorem IntakePort.paceInOrder_dequeue {p : IntakePort} (c : IntakeCounter) (h : p.PaceInOrder) :
    (p.dequeue c).PaceInOrder := by
  refine IntakePort.paceInOrder_repace ?_
  rw [IntakePort.clearOverrun_eq]
  exact h.1

theorem State.paceInOrder_intakeArrival {s : State} (rx : List RxWord) (h : s.intake.PaceInOrder) :
    (s.intakeArrival rx).intake.PaceInOrder := by
  unfold State.intakeArrival
  dsimp only
  split
  · exact h
  · cases intakeVerdict rx with
    | damaged d =>
      simp only [State.acceptArrival, State.damagedArrival]
      split
      · exact IntakePort.paceInOrder_repace h.1
      · exact h
    | misdirected => exact h
    | good p =>
      simp only [State.acceptArrival]
      split
      · cases p <;> exact IntakePort.paceInOrder_repace h.1
      · simp only [State.overrunDrop]
        split <;> exact h

theorem CommandShape.paceInOrder {s t : State} (h : CommandShape s t) (hs : s.intake.PaceInOrder) :
    t.intake.PaceInOrder := by
  cases h with
  | work w =>
    rw [w.frame.intake]
    exact hs
  | configured =>
    rw [State.wake_eq]
    exact hs
  | rampWritten | deliverySet | flushed => exact hs
  | intakeSet halt resume f d low high below =>
    refine IntakePort.paceInOrder_repace ?_
    rw [IntakePort.clearOverrun_eq]
    exact ⟨low, high, below⟩
  | intakeResumed | partReset => exact IntakePort.paceInOrder_repace hs.1

theorem State.paceInOrder_endTransmission {s : State} (hs : s.intake.PaceInOrder) :
    s.endTransmission.intake.PaceInOrder := by
  unfold State.endTransmission
  split
  · exact hs
  · exact hs
  · obtain ⟨l, moved⟩ := State.waitServed_move { s with delivery := s.delivery.endSample }
    have served : (State.waitServed { s with delivery := s.delivery.endSample }).intake.PaceInOrder := by
      rw [moved.outline.intake]
      exact hs
    rw [State.endSampleTransmission_eq]
    dsimp only
    split <;> exact served

theorem Effect.paceInOrder {s t : State} (h : Effect s t) (hs : s.intake.PaceInOrder) : t.intake.PaceInOrder := by
  have moved : ∀ {l : LaneId} {u : State}, LaneMove l s u → u.intake.PaceInOrder := fun move => by
    rw [move.outline.intake]
    exact hs
  cases h with
  | kept | deliveryUp | deliveryDown | started | batchExpired => exact hs
  | taken p rest r _ _ lawful => exact lawful.effect.shape.paceInOrder (s := s.beginTake rest) hs
  | intakeArrived rx _ => exact State.paceInOrder_intakeArrival rx hs
  | intakeUp => exact IntakePort.paceInOrder_startPace (p := { s.intake with link := .up, lastSent := none }) hs
  | intakeDown receiving =>
    unfold IntakePort.linkDown
    cases receiving <;> exact hs
  | paceEnded =>
    unfold IntakePort.paceEnd
    split
    · rename_i x _
      exact IntakePort.paceInOrder_startPace (p := { s.intake with lastSent := some x, sending := none }) hs
    · exact hs
  | offered p rest _ =>
    have answered := moved (s.answer_move p)
    cases (s.answer p).1 with
    | take => exact IntakePort.paceInOrder_dequeue _ answered
    | discard => exact IntakePort.paceInOrder_dequeue _ answered
    | wait => exact answered
  | returnArrived rx =>
    unfold State.returnArrival
    cases returnVerdict rx <;> exact hs
  | ended => exact State.paceInOrder_endTransmission hs
  | starved l running => exact moved (State.expireLane_move (by rw [running]; simp))
  | repairTaken => exact moved s.takeRepair_move.choose_spec
  | repairCompleted => exact moved s.completeRepair_move.choose_spec

theorem step_keeps_intakePace {s t : State} (h : step s = .next t) (hs : IntakePaceLaw s) : IntakePaceLaw t := by
  refine step_keeps (P := IntakePaceLaw) (fun s q hs => hs) (fun s t effect hs => ?_) h hs
  obtain _ | level | effect := effect
  · unfold State.tick
    split <;> exact hs
  · exact (by decide : IntakePaceLaw State.reset)
  obtain level | _ | ⟨_, effect⟩ := effect
  · unfold State.readyChanged
    split <;> exact hs
  · exact hs
  · exact effect.paceInOrder hs

/-! ### The delivery pace -/

/-- What the delivery pace rests on is as it was (R153). -/
structure SamePace (s t : State) : Prop where
  resetLine : t.resetLine = s.resetLine
  deliveryReady : t.deliveryReady = s.deliveryReady
  form : t.delivery.form = s.delivery.form
  lastPace : t.delivery.lastPace = s.delivery.lastPace
  pace : t.delivery.pace = s.delivery.pace

theorem SamePace.trans {s t u : State} (h : SamePace s t) (k : SamePace t u) : SamePace s u :=
  ⟨k.resetLine.trans h.resetLine, k.deliveryReady.trans h.deliveryReady, k.form.trans h.form,
    k.lastPace.trans h.lastPace, k.pace.trans h.pace⟩

theorem SamePace.law {s t : State} (h : SamePace s t) (hs : DeliveryPaceLaw s) : DeliveryPaceLaw t := by
  obtain ⟨held, stop⟩ := hs
  refine ⟨?_, ?_⟩
  · rw [h.resetLine, h.form, h.lastPace]
    exact held
  · rw [h.pace, h.form, h.lastPace, h.deliveryReady]
    exact stop

theorem Outline.samePace {s t : State} (h : Outline s t) : SamePace s t := by
  obtain ⟨_, _, form, lastPace, pace, _⟩ := h.settings
  exact ⟨h.lines.resetLine, h.lines.deliveryReady, form, lastPace, pace⟩

/-- The pace worked out afresh is the one R153 says. -/
theorem State.freshPace_law {s : State}
    (held : s.resetLine = true → s.delivery.form = .byParcel ∧ s.delivery.lastPace = .go) :
    DeliveryPaceLaw s.freshPace := by
  refine ⟨held, ?_⟩
  change deliveryPaceOf _ _ _ = _ ↔ _
  rw [deliveryPaceOf_eq]
  change _ ↔ ((s.delivery.form = .byParcel ∨ s.delivery.form = .both) ∧ s.delivery.lastPace = .stop)
    ∨ (s.delivery.form = .byLine ∨ s.delivery.form = .both) ∧ s.deliveryReady = false
  cases s.delivery.form <;> cases s.delivery.lastPace <;> simp

theorem DeliveryPort.sameSettings_commitDue (d : DeliveryPort) : d.SameSettings d.commitDue := by
  unfold DeliveryPort.commitDue
  split <;> exact ⟨rfl, rfl, rfl, rfl, rfl, rfl, rfl, rfl⟩

theorem State.samePace_commitDue (s : State) : SamePace s { s with delivery := s.delivery.commitDue } := by
  obtain ⟨_, _, form, lastPace, pace, _⟩ := s.delivery.sameSettings_commitDue
  exact ⟨rfl, rfl, form, lastPace, pace⟩

theorem CommandShape.deliveryPace {s t : State} (h : CommandShape s t) (running : s.resetLine = false)
    (hs : DeliveryPaceLaw s) : DeliveryPaceLaw t := by
  cases h with
  | work w => exact w.outline.samePace.law hs
  | configured =>
    rw [State.wake_eq]
    exact hs
  | rampWritten | intakeSet | intakeResumed | partReset => exact hs
  | deliverySet f t =>
    exact State.freshPace_law fun held => absurd (running.symm.trans held) (by simp)
  | flushed => exact s.samePace_commitDue.law hs

theorem DeliveryPort.sameSettings_issueAll (ns : List Notice) :
    ∀ d : DeliveryPort, d.SameSettings (d.issueAll ns) := by
  induction ns with
  | nil => exact DeliveryPort.SameSettings.refl
  | cons n ns ih => exact fun d => (d.sameSettings_issue n).trans (ih _)

theorem State.samePace_endTransmission (s : State) : SamePace s s.endTransmission := by
  unfold State.endTransmission
  split
  · exact ⟨rfl, rfl, rfl, rfl, rfl⟩
  · unfold DeliveryPort.endMessage
    split
    · exact ⟨rfl, rfl, rfl, rfl, rfl⟩
    · dsimp only
      split <;> exact ⟨rfl, rfl, rfl, rfl, rfl⟩
  · have ended : SamePace s { s with delivery := s.delivery.endSample } := by
      unfold DeliveryPort.endSample
      split <;> exact ⟨rfl, rfl, rfl, rfl, rfl⟩
    obtain ⟨l, moved⟩ := State.waitServed_move { s with delivery := s.delivery.endSample }
    have served := ended.trans moved.outline.samePace
    rw [State.endSampleTransmission_eq]
    dsimp only
    split
    · exact ⟨served.1, served.2, served.3, served.4, served.5⟩
    · exact served

theorem Effect.deliveryPace {s t : State} (running : s.resetLine = false) (h : Effect s t) (hs : DeliveryPaceLaw s) :
    DeliveryPaceLaw t := by
  cases h with
  | kept | intakeUp | intakeDown | paceEnded | deliveryUp => exact hs
  | taken p rest r _ _ lawful => exact lawful.effect.shape.deliveryPace (s := s.beginTake rest) running hs
  | intakeArrived rx _ =>
    obtain ⟨ns, issued⟩ := s.delivery_intakeArrival rx
    have lines := s.sameLines_intakeArrival rx
    obtain ⟨_, _, form, lastPace, pace, _⟩ := DeliveryPort.sameSettings_issueAll ns s.delivery
    rw [← issued] at form lastPace pace
    exact SamePace.law ⟨lines.resetLine, lines.deliveryReady, form, lastPace, pace⟩ hs
  | offered p rest _ =>
    have answered := (s.answer_move p).outline.samePace.law hs
    cases (s.answer p).1 <;> exact answered
  | returnArrived rx =>
    unfold State.returnArrival
    cases returnVerdict rx with
    | damaged | misdirected | control => exact hs
    | pace p => exact State.freshPace_law fun held => absurd (running.symm.trans held) (by simp)
  | deliveryDown receiving =>
    unfold DeliveryPort.linkDown
    dsimp only
    split <;> split <;> exact hs
  | started =>
    unfold DeliveryPort.start
    split <;> exact hs
  | ended => exact s.samePace_endTransmission.law hs
  | starved l off => exact (State.expireLane_move (by rw [off]; simp)).outline.samePace.law hs
  | batchExpired => exact s.samePace_commitDue.law hs
  | repairTaken => exact s.takeRepair_move.choose_spec.outline.samePace.law hs
  | repairCompleted => exact s.completeRepair_move.choose_spec.outline.samePace.law hs

theorem step_keeps_deliveryPace {s t : State} (h : step s = .next t) (hs : DeliveryPaceLaw s) : DeliveryPaceLaw t := by
  refine step_keeps (P := DeliveryPaceLaw) (fun s q hs => hs) (fun s t effect hs => ?_) h hs
  obtain _ | level | effect := effect
  · unfold State.tick
    split <;> exact hs
  · refine ⟨fun _ => ⟨rfl, rfl⟩, ?_⟩
    simp [State.powerOnKeeping, State.reset, DeliveryPort.powerOn]
  obtain level | _ | ⟨running, effect⟩ := effect
  · unfold State.readyChanged
    split
    · rename_i held
      obtain ⟨form, lastPace⟩ := hs.1 held
      have go := hs.2
      rw [form, lastPace] at go
      refine ⟨hs.1, ?_⟩
      change s.delivery.pace = .stop ↔ _
      rw [go]
      simp [form, lastPace]
    · rename_i running
      exact State.freshPace_law fun held => absurd held running
  · exact hs
  · exact effect.deliveryPace running hs

/-- Settles O50: the intake pace is set again wherever what it rests on changes, and the delivery pace is worked out afresh
where the form, the last PACE state or DELIVERY_READY changes. -/
theorem stepsKeepPaceLaws : Obligations.StepsKeepPaceLaws := fun _ _ intake delivery h =>
  ⟨step_keeps_intakePace h intake, step_keeps_deliveryPace h delivery⟩

end Sys2Proof.Machine
end

section
/-! The queues and the notice batch (R132, R156 to R158), the parcel in transmission (R148, R160) and the parcels of the
intake queue (R134). -/

namespace Sys2Proof.Machine

/-! ### The lines and the waiting events -/

theorem State.sameLines_endTransmission (s : State) : SameLines s s.endTransmission := by
  unfold State.endTransmission
  split
  · exact ⟨rfl, rfl, rfl⟩
  · exact ⟨rfl, rfl, rfl⟩
  · obtain ⟨l, moved⟩ := State.waitServed_move { s with delivery := s.delivery.endSample }
    obtain ⟨a, b, c⟩ := moved.outline.lines
    rw [State.endSampleTransmission_eq]
    dsimp only
    split <;> exact ⟨a, b, c⟩

theorem Effect.sameLines {s t : State} (h : Effect s t) : SameLines s t := by
  cases h with
  | kept | intakeUp | intakeDown | paceEnded | deliveryUp | deliveryDown | started | batchExpired => exact ⟨rfl, rfl, rfl⟩
  | taken p rest r _ _ lawful =>
    obtain ⟨a, b, c⟩ := lawful.effect.shape.sameLines
    exact ⟨a, b, c⟩
  | intakeArrived rx _ => exact s.sameLines_intakeArrival rx
  | offered p rest _ => exact (s.answer_work p).sameLines.trans (State.sameLines_actOn _ _)
  | returnArrived rx => exact s.sameLines_returnArrival rx
  | ended => exact s.sameLines_endTransmission
  | starved l _ => exact (s.expireLane_work l).sameLines
  | repairTaken => exact s.takeRepair_work.sameLines
  | repairCompleted => exact s.completeRepair_work.sameLines

/-- Settles O2: every command and event answers one of the listed effects, and of these only the two of the RESET line move
it. -/
theorem everyCommandAnswersANextState : Obligations.EveryCommandAnswersANextState := by
  intro c s
  by_cases assert : c = .resetAssert
  · subst assert
    exact ⟨_, rfl, rfl, fun other => absurd rfl other⟩
  by_cases start : c = .powerOnStart
  · subst start
    exact ⟨_, rfl, rfl, fun _ other => absurd rfl other⟩
  obtain ⟨t, next, effect⟩ := exec_effect c s assert start
  have same : SameLines s t ∨ t = s.readyChanged (t.deliveryReady) := by
    obtain level | _ | ⟨_, effect⟩ := effect
    · refine .inr ?_
      unfold State.readyChanged
      split <;> rfl
    · exact .inl ⟨rfl, rfl, rfl⟩
    · exact .inl effect.sameLines
  refine ⟨t, next, ?_⟩
  obtain lines | ready := same
  · exact ⟨lines.pending, fun _ _ => lines.resetLine⟩
  · rw [ready]
    unfold State.readyChanged
    split <;> exact ⟨rfl, fun _ _ => rfl⟩

/-! ### The queues and the batch -/

theorem DeliveryPort.SameSettings.replyReserved {d e : DeliveryPort} (h : d.SameSettings e) :
    e.replyReserved = d.replyReserved := by
  obtain ⟨_, _, _, _, _, _, reserved, _⟩ := h
  exact reserved

/-- The laws of the queues and the batch, with the place set aside for a REPLY counted as taken. -/
structure State.QueuesInOrder (s : State) : Prop where
  intake : s.intake.queue.length ≤ 48
  samples : s.delivery.samples.length ≤ 32
  control : s.control.queue.length ≤ 4
  messages : s.delivery.MessagesInBounds
  batch : s.delivery.BatchInOrder

theorem State.queuesInOrder_iff (s : State) :
    QueuesInBounds s ∧ BatchLaw s ↔ s.QueuesInOrder ∧ s.delivery.replyReserved = false := by
  constructor
  · rintro ⟨⟨intake, samples, messages, batch, control, unreserved⟩, full, pending, timer⟩
    refine ⟨⟨intake, samples, control, ⟨?_, batch⟩, full, fun due => ?_, timer⟩, unreserved⟩
    · rw [unreserved]
      exact messages
    · rw [unreserved]
      exact pending due
  · rintro ⟨⟨intake, samples, control, ⟨messages, batch⟩, full, pending, timer⟩, unreserved⟩
    rw [unreserved] at messages pending
    exact ⟨⟨intake, samples, messages, batch, control, unreserved⟩, full, pending, timer⟩

theorem Work.queuesInOrder {s t : State} (h : Work s t) (hs : s.QueuesInOrder) : t.QueuesInOrder where
  intake := by
    rw [h.frame.intake]
    exact hs.intake
  samples := h.frame.capacity hs.samples
  control := by
    rw [h.frame.control]
    exact hs.control
  messages := h.messagesInBounds hs.messages
  batch := h.batchInOrder hs.messages hs.batch

/-- A batch with entries that is due for commit is committed, or waits for a place that nothing but a full queue denies
(R158). -/
theorem DeliveryPort.commitDue_inOrder {d : DeliveryPort} (held : d.batch ≠ []) (messages : d.MessagesInBounds) :
    d.commitDue.MessagesInBounds ∧ d.commitDue.BatchInOrder := by
  obtain ⟨bound, batch⟩ := messages
  by_cases room : d.messages.length + (if d.replyReserved then 1 else 0) < 8
  · rw [DeliveryPort.commitDue_of_room (decide_eq_true room)]
    refine ⟨⟨?_, Nat.zero_le _⟩, ?_⟩
    · change (d.messages ++ [_]).length + (if d.replyReserved then 1 else 0) ≤ 8
      rw [List.length_append, List.length_singleton]
      omega
    · refine ⟨?_, ?_, ?_⟩ <;> simp [DeliveryPort.commit, Timer.idle]
  · rw [DeliveryPort.commitDue_of_full (decide_eq_false room)]
    refine ⟨⟨bound, batch⟩, fun _ => rfl, fun _ => ⟨held, ?_⟩, ?_⟩
    · change d.messages.length + (if d.replyReserved then 1 else 0) = 8
      omega
    · simp [Timer.idle]

theorem State.QueuesInOrder.commitDue {s : State} (hs : s.QueuesInOrder) (held : s.delivery.batch ≠ []) :
    State.QueuesInOrder { s with delivery := s.delivery.commitDue } := by
  obtain ⟨messages, batch⟩ := DeliveryPort.commitDue_inOrder held hs.messages
  have samples : s.delivery.commitDue.samples = s.delivery.samples := by
    unfold DeliveryPort.commitDue
    split <;> rfl
  refine ⟨hs.intake, ?_, hs.control, messages, batch⟩
  change s.delivery.commitDue.samples.length ≤ 32
  rw [samples]
  exact hs.samples

theorem CommandShape.queuesInOrder {s t : State} (h : CommandShape s t) (hs : s.QueuesInOrder) : t.QueuesInOrder := by
  obtain ⟨intake, samples, control, messages, batch⟩ := hs
  cases h with
  | work w => exact w.queuesInOrder ⟨intake, samples, control, messages, batch⟩
  | configured =>
    rw [State.wake_eq]
    exact ⟨intake, samples, control, messages, batch⟩
  | rampWritten => exact ⟨intake, samples, control, messages, batch⟩
  | intakeSet =>
    refine ⟨?_, samples, control, messages, batch⟩
    dsimp only
    rw [IntakePort.configure_eq]
    exact intake
  | intakeResumed =>
    refine ⟨?_, samples, control, messages, batch⟩
    dsimp only
    rw [IntakePort.repace_eq]
    exact intake
  | deliverySet => exact ⟨intake, samples, control, messages, batch⟩
  | flushed held => exact State.QueuesInOrder.commitDue ⟨intake, samples, control, messages, batch⟩ held
  | partReset =>
    refine ⟨?_, Nat.zero_le _, control, ⟨messages.1, Nat.zero_le _⟩, ?_⟩
    · simp only [State.resetPart, IntakePort.resetPart, IntakePort.repace_eq]
      exact Nat.zero_le _
    · refine ⟨?_, ?_, ?_⟩ <;> simp [State.resetPart, DeliveryPort.resetPart, Timer.idle]

theorem CommandShape.replyReserved {s t : State} (h : CommandShape s t) :
    t.delivery.replyReserved = s.delivery.replyReserved := by
  cases h with
  | work w => exact w.frame.settings.replyReserved
  | configured => rw [State.wake_eq]; rfl
  | rampWritten | intakeSet | intakeResumed | deliverySet | partReset => rfl
  | flushed => exact s.delivery.sameSettings_commitDue.replyReserved

/-- A take sets a free place aside: with a place free no commit is pending (R158, R166). -/
theorem State.QueuesInOrder.beginTake {s : State} (hs : s.QueuesInOrder) (unreserved : s.delivery.replyReserved = false)
    {p : ControlParcel} {rest : List ControlParcel} (queue : s.control.queue = p :: rest)
    (room : s.delivery.messages.length < 8) : (s.beginTake rest).QueuesInOrder := by
  obtain ⟨intake, samples, control, ⟨messages, entries⟩, full, pending, timer⟩ := hs
  rw [queue, List.length_cons] at control
  refine ⟨intake, samples, by change rest.length ≤ 4; omega, ⟨room, entries⟩, full, fun due => ?_, timer⟩
  have := (pending due).2
  rw [unreserved] at this
  simp only [Bool.false_eq_true, if_false] at this
  omega

/-- The REPLY takes the place that was set aside for it (R166). -/
theorem State.QueuesInOrder.queueReply {u : State} (hu : u.QueuesInOrder) (reserved : u.delivery.replyReserved = true)
    (tag : Word) (r : CommandResult) : (u.queueReply tag r).QueuesInOrder := by
  obtain ⟨intake, samples, control, ⟨messages, entries⟩, full, pending, timer⟩ := hu
  rw [reserved] at messages pending
  have grown : (u.queueReply tag r).delivery.messages.length + 0 = u.delivery.messages.length + 1 := by
    simp [State.queueReply]
  refine ⟨intake, samples, ?_, ⟨grown.trans_le messages, entries⟩, full, fun due => ?_, timer⟩
  · unfold State.queueReply
    dsimp only
    split <;> exact control
  · exact ⟨(pending due).1, grown.trans (pending due).2⟩

theorem State.QueuesInOrder.issueAll (ns : List Notice) : ∀ d : DeliveryPort, d.MessagesInBounds → d.BatchInOrder →
    (d.issueAll ns).MessagesInBounds ∧ (d.issueAll ns).BatchInOrder := by
  induction ns with
  | nil => exact fun d messages batch => ⟨messages, batch⟩
  | cons n ns ih => exact fun d messages batch => ih _ (messages.issue n) (batch.issue n messages)

theorem DeliveryPort.samples_issueAll (ns : List Notice) :
    ∀ d : DeliveryPort, (d.issueAll ns).samples = d.samples := by
  induction ns with
  | nil => exact fun d => rfl
  | cons n ns ih => exact fun d => (ih _).trans (d.samples_issue n)

theorem State.control_intakeArrival (s : State) (rx : List RxWord) : (s.intakeArrival rx).control = s.control := by
  unfold State.intakeArrival
  dsimp only
  split
  · rfl
  · cases intakeVerdict rx with
    | damaged d =>
      simp only [State.acceptArrival, State.damagedArrival]
      split <;> rfl
    | misdirected => rfl
    | good p =>
      simp only [State.acceptArrival]
      split
      · cases p <;> rfl
      · simp only [State.overrunDrop]
        split <;> rfl

theorem State.QueuesInOrder.intakeArrival {s : State} (hs : s.QueuesInOrder) (rx : List RxWord) :
    (s.intakeArrival rx).QueuesInOrder := by
  obtain ⟨ns, issued⟩ := s.delivery_intakeArrival rx
  obtain ⟨messages, batch⟩ := State.QueuesInOrder.issueAll ns _ hs.messages hs.batch
  refine ⟨?_, ?_, ?_, ?_, ?_⟩
  · obtain same | ⟨p, _, room, joined⟩ := s.queue_intakeArrival rx
    · rw [same]
      exact hs.intake
    · rw [joined, List.length_append, List.length_singleton]
      omega
  · rw [issued, DeliveryPort.samples_issueAll]
    exact hs.samples
  · rw [s.control_intakeArrival]
    exact hs.control
  · rw [issued]
    exact messages
  · rw [issued]
    exact batch

/-- The place of a message that has left is free, or a pending commit takes it (R152). -/
theorem DeliveryPort.endMessage_inOrder {d : DeliveryPort} (messages : d.MessagesInBounds) (batch : d.BatchInOrder)
    (unreserved : d.replyReserved = false) : d.endMessage.MessagesInBounds ∧ d.endMessage.BatchInOrder := by
  obtain ⟨bound, entries⟩ := messages
  obtain ⟨full, pending, timer⟩ := batch
  unfold DeliveryPort.endMessage
  split
  · exact ⟨⟨bound, entries⟩, full, pending, timer⟩
  · rename_i m rest queue
    rw [queue, List.length_cons, unreserved] at bound
    simp only [Bool.false_eq_true, if_false] at bound
    dsimp only
    split
    · refine ⟨⟨?_, Nat.zero_le _⟩, ?_⟩
      · change (rest ++ [_]).length + (if d.replyReserved then 1 else 0) ≤ 8
        rw [unreserved, List.length_append, List.length_singleton]
        exact bound
      · refine ⟨?_, ?_, ?_⟩ <;> simp [DeliveryPort.commit, Timer.idle]
    · rename_i none
      refine ⟨⟨?_, entries⟩, full, fun due => absurd due none, timer⟩
      change rest.length + (if d.replyReserved then 1 else 0) ≤ 8
      rw [unreserved]
      simp only [Bool.false_eq_true, if_false]
      omega

theorem State.QueuesInOrder.endTransmission {s : State} (hs : s.QueuesInOrder)
    (unreserved : s.delivery.replyReserved = false) : s.endTransmission.QueuesInOrder := by
  obtain ⟨intake, samples, control, messages, batch⟩ := hs
  unfold State.endTransmission
  split
  · exact ⟨intake, samples, control, messages, batch⟩
  · obtain ⟨bound, inOrder⟩ := DeliveryPort.endMessage_inOrder messages batch unreserved
    refine ⟨intake, ?_, control, bound, inOrder⟩
    have same : s.delivery.endMessage.samples = s.delivery.samples := by
      unfold DeliveryPort.endMessage
      split
      · rfl
      · dsimp only
        split <;> rfl
    dsimp only
    rw [same]
    exact samples
  · have ended : State.QueuesInOrder { s with delivery := s.delivery.endSample }
        ∧ State.sampleRoom { s with delivery := s.delivery.endSample } = true := by
      unfold State.sampleRoom DeliveryPort.endSample
      split
      · rename_i empty
        refine ⟨⟨intake, samples, control, messages, batch⟩, decide_eq_true ?_⟩
        change s.delivery.samples.length < 32
        rw [empty]
        exact Nat.zero_lt_succ _
      · rename_i p rest queue
        rw [queue, List.length_cons] at samples
        have lt : rest.length < 32 := by omega
        exact ⟨⟨intake, lt.le, control, messages, batch⟩, decide_eq_true lt⟩
    obtain ⟨inOrder, room⟩ := ended
    have served : (State.waitServed { s with delivery := s.delivery.endSample }).QueuesInOrder := by
      unfold State.waitServed
      split
      · exact inOrder
      · exact (State.serveWait_work _ _ room).queuesInOrder inOrder
    rw [State.endSampleTransmission_eq]
    dsimp only
    split
    · exact ⟨served.1, served.2, served.3, served.4, served.5⟩
    · exact served

theorem Effect.queuesInOrder {s t : State} (h : Effect s t) (hs : s.QueuesInOrder)
    (unreserved : s.delivery.replyReserved = false) : t.QueuesInOrder := by
  have inOrder := hs
  obtain ⟨intake, samples, control, messages, batch⟩ := hs
  cases h with
  | kept | deliveryUp => exact ⟨intake, samples, control, messages, batch⟩
  | taken p rest r queue room lawful =>
    have reserved : r.after.delivery.replyReserved = true := lawful.effect.shape.replyReserved
    exact (lawful.effect.shape.queuesInOrder (inOrder.beginTake unreserved queue room)).queueReply reserved p.tag r
  | intakeArrived rx _ => exact inOrder.intakeArrival rx
  | intakeUp =>
    refine ⟨?_, samples, control, messages, batch⟩
    simp only [IntakePort.linkUp, IntakePort.startPace_eq]
    exact intake
  | intakeDown receiving =>
    unfold IntakePort.linkDown
    cases receiving <;> exact ⟨intake, samples, control, messages, batch⟩
  | paceEnded =>
    refine ⟨?_, samples, control, messages, batch⟩
    unfold IntakePort.paceEnd
    split
    · simp only [IntakePort.startPace_eq]
      exact intake
    · exact intake
  | offered p rest _ =>
    have answered := (s.answer_work p).queuesInOrder inOrder
    have gone : ∀ c, ((s.answer p).2.intake.dequeue c).queue.length ≤ 48 := fun c => by
      simp only [IntakePort.dequeue, IntakePort.repace_eq, IntakePort.clearOverrun_eq]
      have := answered.intake
      change (s.answer p).2.intake.queue.tail.length ≤ 48
      rw [List.length_tail]
      omega
    cases (s.answer p).1 with
    | take => exact ⟨gone _, answered.samples, answered.control, answered.messages, answered.batch⟩
    | discard => exact ⟨gone _, answered.samples, answered.control, answered.messages, answered.batch⟩
    | wait => exact ⟨answered.intake, answered.samples, answered.control, answered.messages, answered.batch⟩
  | returnArrived rx =>
    unfold State.returnArrival
    cases returnVerdict rx with
    | damaged | misdirected | pace => exact ⟨intake, samples, control, messages, batch⟩
    | control p =>
      refine ⟨intake, samples, ?_, messages, batch⟩
      simp only [State.acceptReturn, ControlUnit.admitted]
      split
      · rename_i room
        change (s.control.queue ++ [p]).length ≤ 4
        rw [List.length_append, List.length_singleton]
        exact room
      · exact control
  | deliveryDown receiving =>
    unfold DeliveryPort.linkDown
    dsimp only
    split <;> split <;> exact ⟨intake, samples, control, messages, batch⟩
  | started =>
    unfold DeliveryPort.start
    split <;> exact ⟨intake, samples, control, messages, batch⟩
  | ended => exact inOrder.endTransmission unreserved
  | starved l _ => exact (s.expireLane_work l).queuesInOrder inOrder
  | batchExpired expired =>
    unfold Timer.expired at expired
    rw [Bool.and_eq_true] at expired
    exact inOrder.commitDue (batch.2.2.1 expired.1).1
  | repairTaken => exact s.takeRepair_work.queuesInOrder inOrder
  | repairCompleted => exact s.completeRepair_work.queuesInOrder inOrder

theorem State.replyReserved_endTransmission (s : State) :
    s.endTransmission.delivery.replyReserved = s.delivery.replyReserved := by
  unfold State.endTransmission
  split
  · rfl
  · unfold DeliveryPort.endMessage
    split
    · rfl
    · dsimp only
      split <;> rfl
  · obtain ⟨l, moved⟩ := State.waitServed_move { s with delivery := s.delivery.endSample }
    have ended : s.delivery.endSample.replyReserved = s.delivery.replyReserved := by
      unfold DeliveryPort.endSample
      split <;> rfl
    have served := moved.outline.settings.replyReserved.trans ended
    rw [State.endSampleTransmission_eq]
    dsimp only
    split <;> exact served

/-- No place stays set aside for a REPLY between two events (log 8). -/
theorem Effect.unreserved {s t : State} (h : Effect s t) (unreserved : s.delivery.replyReserved = false) :
    t.delivery.replyReserved = false := by
  have worked : ∀ {u : State}, Work s u → u.delivery.replyReserved = false := fun w =>
    w.frame.settings.replyReserved.trans unreserved
  cases h with
  | kept | intakeUp | intakeDown | paceEnded | deliveryUp => exact unreserved
  | taken => rfl
  | intakeArrived rx _ =>
    obtain ⟨ns, issued⟩ := s.delivery_intakeArrival rx
    rw [issued]
    exact (DeliveryPort.sameSettings_issueAll ns s.delivery).replyReserved.trans unreserved
  | offered p rest _ =>
    have answered := worked (s.answer_work p)
    cases (s.answer p).1 <;> exact answered
  | returnArrived rx =>
    unfold State.returnArrival
    cases returnVerdict rx <;> exact unreserved
  | deliveryDown receiving =>
    unfold DeliveryPort.linkDown
    dsimp only
    split <;> split <;> exact unreserved
  | started =>
    unfold DeliveryPort.start
    split <;> exact unreserved
  | ended => exact s.replyReserved_endTransmission.trans unreserved
  | starved l _ => exact worked (s.expireLane_work l)
  | batchExpired => exact s.delivery.sameSettings_commitDue.replyReserved.trans unreserved
  | repairTaken => exact worked s.takeRepair_work
  | repairCompleted => exact worked s.completeRepair_work

/-- Settles O49: the laws are carried through a take with the place of the REPLY counted as taken; every other event grows
a queue only into a free place. -/
theorem stepsKeepQueueAndBatchLaws : Obligations.StepsKeepQueueAndBatchLaws := by
  intro s t queues batch h
  rw [State.queuesInOrder_iff]
  refine step_keeps (P := fun s => s.QueuesInOrder ∧ s.delivery.replyReserved = false)
    (fun s q ⟨inOrder, unreserved⟩ => ⟨⟨inOrder.1, inOrder.2, inOrder.3, inOrder.4, inOrder.5⟩, unreserved⟩)
    (fun s t effect ⟨inOrder, unreserved⟩ => ?_) h (s.queuesInOrder_iff.1 ⟨queues, batch⟩)
  have power : ∀ level, (s.powerOnKeeping level).QueuesInOrder :=
    fun level => ⟨Nat.zero_le _, Nat.zero_le _, Nat.zero_le _, ⟨Nat.zero_le _, Nat.zero_le _⟩, by
      refine ⟨?_, ?_, ?_⟩ <;> simp [State.powerOnKeeping, State.reset, DeliveryPort.powerOn, Timer.idle]⟩
  obtain ⟨intake, samples, control, messages, full, pending, timer⟩ := inOrder
  obtain _ | level | effect := effect
  · unfold State.tick
    split
    · exact ⟨⟨intake, samples, control, messages, full, pending, timer⟩, unreserved⟩
    · refine ⟨⟨intake, samples, control, messages, full, pending, ?_⟩, unreserved⟩
      rw [← timer]
      unfold Timer.tick
      dsimp only
      split <;> rfl
  · exact ⟨power level, rfl⟩
  obtain level | _ | ⟨_, effect⟩ := effect
  · unfold State.readyChanged
    split <;> exact ⟨⟨intake, samples, control, messages, full, pending, timer⟩, unreserved⟩
  · exact ⟨⟨intake, samples, control, messages, full, pending, timer⟩, unreserved⟩
  · exact ⟨effect.queuesInOrder ⟨intake, samples, control, messages, full, pending, timer⟩ unreserved,
      effect.unreserved unreserved⟩

end Sys2Proof.Machine
end

section
/-! The parcel in transmission (R148, R160), the parcels of the intake queue (R134), the gates, ramps and timers (R25, R106,
R110). -/

namespace Sys2Proof.Machine

/-! ### The parcel in transmission -/

/-- The law of R148 and R160 on the delivery port alone. -/
def DeliveryPort.Transmits (d : DeliveryPort) : Prop :=
  (d.transmission = .sample → d.samples ≠ []) ∧ (d.transmission = .message → d.messages ≠ [])
    ∧ (d.transmission ≠ .none → d.link = .up)

theorem transmissionLaw_iff (s : State) : TransmissionLaw s ↔ s.delivery.Transmits := Iff.rfl

/-- Parcels may join the queues behind the one in transmission. -/
theorem DeliveryPort.Transmits.grown {d e : DeliveryPort} (h : d.Transmits) (settings : d.SameSettings e)
    (samples : d.samples <+: e.samples) (messages : d.messages <+: e.messages) : e.Transmits := by
  obtain ⟨sample, message, up⟩ := h
  obtain ⟨link, transmission, _⟩ := settings
  have kept : ∀ {α : Type} {xs ys : List α}, xs <+: ys → xs ≠ [] → ys ≠ [] := by
    rintro α xs ys p full rfl
    exact full (List.prefix_nil.1 p)
  refine ⟨?_, ?_, ?_⟩
  · rw [transmission]
    exact fun sending => kept samples (sample sending)
  · rw [transmission]
    exact fun sending => kept messages (message sending)
  · rw [transmission, link]
    exact up

/-- With nothing in transmission the law asks nothing. -/
theorem DeliveryPort.transmits_of_none {d : DeliveryPort} (h : d.transmission = .none) : d.Transmits := by
  refine ⟨fun c => ?_, fun c => ?_, fun c => absurd h c⟩ <;> rw [h] at c <;> contradiction

theorem Outline.transmits {s t : State} (h : Outline s t) (hs : s.delivery.Transmits) : t.delivery.Transmits :=
  hs.grown h.settings h.samples h.messages

theorem DeliveryPort.Transmits.commitDue {d : DeliveryPort} (h : d.Transmits) : d.commitDue.Transmits := by
  refine h.grown d.sameSettings_commitDue ?_ d.messages_commitDue
  unfold DeliveryPort.commitDue
  split <;> exact List.prefix_refl _

theorem CommandShape.transmits {s t : State} (h : CommandShape s t) (hs : s.delivery.Transmits) :
    t.delivery.Transmits := by
  cases h with
  | work w => exact w.outline.transmits hs
  | configured =>
    rw [State.wake_eq]
    exact hs
  | rampWritten | intakeSet | intakeResumed | deliverySet => exact hs
  | flushed => exact hs.commitDue
  | partReset =>
    by_cases sending : s.delivery.transmission = .sample
    · exact DeliveryPort.transmits_of_none (if_pos sending)
    · have same : s.resetPart.delivery.transmission = s.delivery.transmission := if_neg sending
      obtain ⟨_, message, up⟩ := hs
      refine ⟨fun c => absurd (same.symm.trans c) sending, ?_, ?_⟩
      · rw [same]
        exact message
      · rw [same]
        exact up

theorem DeliveryPort.transmits_start {d : DeliveryPort} (h : d.Transmits) : d.start.Transmits := by
  unfold DeliveryPort.start
  split
  · rename_i can
    simp only [DeliveryPort.canStart, Bool.and_eq_true, Bool.or_eq_true, Bool.not_eq_true', List.isEmpty_eq_false_iff,
      decide_eq_true_eq] at can
    obtain ⟨⟨up, _⟩, waiting⟩ := can
    by_cases empty : d.messages = []
    · obtain full | ⟨samples, _⟩ := waiting
      · exact absurd empty full
      · rw [if_pos (List.isEmpty_iff.2 empty)]
        exact ⟨fun _ => samples, by simp, fun _ => up⟩
    · rw [if_neg (mt List.isEmpty_iff.1 empty)]
      exact ⟨by simp, fun _ => empty, fun _ => up⟩
  · exact h

theorem State.transmits_endTransmission {s : State} (hs : s.delivery.Transmits) :
    s.endTransmission.delivery.Transmits := by
  unfold State.endTransmission
  split
  · exact hs
  · refine DeliveryPort.transmits_of_none ?_
    unfold DeliveryPort.endMessage
    split
    · rfl
    · dsimp only
      split <;> rfl
  · obtain ⟨l, moved⟩ := State.waitServed_move { s with delivery := s.delivery.endSample }
    have served := moved.outline.transmits (s := { s with delivery := s.delivery.endSample })
      (DeliveryPort.transmits_of_none (by unfold DeliveryPort.endSample; dsimp only; split <;> rfl))
    rw [State.endSampleTransmission_eq]
    dsimp only
    split <;> exact served

theorem Effect.transmits {s t : State} (h : Effect s t) (hs : s.delivery.Transmits) : t.delivery.Transmits := by
  cases h with
  | kept | intakeUp | intakeDown | paceEnded => exact hs
  | taken p rest r _ _ lawful =>
    have after : r.after.delivery.Transmits := lawful.effect.shape.transmits (s := s.beginTake rest) hs
    obtain ⟨sample, message, up⟩ := after
    exact ⟨sample, fun _ => by simp [State.queueReply], up⟩
  | intakeArrived rx _ =>
    obtain ⟨ns, issued⟩ := s.delivery_intakeArrival rx
    rw [issued]
    have messages : ∀ (ns : List Notice) (d : DeliveryPort), d.messages <+: (d.issueAll ns).messages := fun ns => by
      induction ns with
      | nil => exact fun d => List.prefix_refl _
      | cons n ns ih => exact fun d => (d.messages_issue n).trans (ih _)
    refine hs.grown (DeliveryPort.sameSettings_issueAll ns _) ?_ (messages ns _)
    rw [DeliveryPort.samples_issueAll]
  | offered p rest _ =>
    have answered := (s.answer_work p).outline.transmits hs
    cases (s.answer p).1 <;> exact answered
  | returnArrived rx =>
    unfold State.returnArrival
    cases returnVerdict rx <;> exact hs
  | deliveryUp down =>
    obtain ⟨sample, message, _⟩ := hs
    exact ⟨sample, message, fun _ => rfl⟩
  | deliveryDown receiving =>
    refine DeliveryPort.transmits_of_none ?_
    unfold DeliveryPort.linkDown
    dsimp only
    split <;> split <;> rfl
  | started => exact DeliveryPort.transmits_start hs
  | ended => exact State.transmits_endTransmission hs
  | starved l _ => exact (s.expireLane_work l).outline.transmits hs
  | batchExpired => exact hs.commitDue
  | repairTaken => exact s.takeRepair_work.outline.transmits hs
  | repairCompleted => exact s.completeRepair_work.outline.transmits hs

theorem step_keeps_transmission {s t : State} (h : step s = .next t) (hs : TransmissionLaw s) : TransmissionLaw t := by
  refine step_keeps (P := TransmissionLaw) (fun s q hs => hs) (fun s t effect hs => ?_) h hs
  obtain _ | level | effect := effect
  · unfold State.tick
    split <;> exact hs
  · exact DeliveryPort.transmits_of_none rfl
  obtain level | _ | ⟨_, effect⟩ := effect
  · unfold State.readyChanged
    split <;> exact hs
  · exact hs
  · exact effect.transmits hs

/-! ### The parcels of the intake queue -/

/-- A parcel without a symbol error, all of its words kept, is the words themselves. -/
theorem eq_map_keptWords : ∀ {rx : List RxWord}, (∀ x ∈ rx, x.isUnkept = false) → .symbolError ∉ rx →
    rx = (keptWords rx).map .word
  | [], _, _ => rfl
  | .word w :: rx, kept, sound => by
    have rest := eq_map_keptWords (rx := rx) (fun x hx => kept x (List.mem_cons_of_mem _ hx))
      fun c => sound (List.mem_cons_of_mem _ c)
    exact congrArg (RxWord.word w :: ·) rest
  | .symbolError :: _, _, sound => absurd (List.mem_cons_self ..) sound
  | .unkept w :: _, kept, _ => absurd (kept (.unkept w) (List.mem_cons_self ..)) (by simp [RxWord.isUnkept])

/-- A well-formed parcel of at most 517 words keeps them all (R174). -/
theorem isParcel_kept {rx : List RxWord} (parcel : isParcel rx = true) (short : rx.length ≤ 517) :
    ∀ x ∈ rx, x.isUnkept = false := by
  simp only [isParcel, RxWord.parcelOk, RxWord.keptOnlyFirst, Bool.and_eq_true, List.all_eq_true] at parcel
  obtain ⟨_, kept, _⟩ := parcel
  rw [Config.keptWords, List.take_of_length_le short] at kept
  intro x hx
  simpa using kept x hx

/-- The intake queue admits parcels in the ranges of R134 only. -/
theorem intakeVerdict_inRange {rx : List RxWord} {p : InParcel} (parcel : isParcel rx = true)
    (h : intakeVerdict rx = .good p) : p.inRange = true := by
  unfold intakeVerdict at h
  dsimp only at h
  split at h
  · contradiction
  rename_i checked
  split at h
  · contradiction
  split at h
  · contradiction
  split at h
  · contradiction
  rename_i agrees
  split at h
  · contradiction
  rename_i filled
  rw [not_not] at checked
  simp only [lengthDisagrees, Bool.or_eq_true, decide_eq_true_eq, Bool.and_eq_true, not_or, not_not, Nat.not_lt] at agrees
  obtain ⟨⟨⟨count, short⟩, _⟩, _⟩ := agrees
  have sound : RxWord.symbolError ∉ rx := fun c => by
    rw [checkRegister_symbolError c] at checked
    contradiction
  have words := congrArg List.length (eq_map_keptWords (isParcel_kept parcel short) sound)
  rw [List.length_map] at words
  unfold intakeFields at h
  dsimp only at h
  split at h
  · split at h
    · rename_i samples
      split at h
      · contradiction
      · rename_i few
        cases h
        have pay : (payloadOf (keptWords rx)).length = hdrCount (keptWords rx) := by
          unfold payloadOf
          rw [List.length_take, List.length_drop]
          omega
        have some : hdrCount (keptWords rx) ≠ 0 := fun c => filled ⟨samples, c⟩
        simp only [InParcel.inRange, pay, Bool.and_eq_true, decide_eq_true_eq]
        omega
    · split at h
      · split at h
        · contradiction
        · rename_i low
          cases h
          exact decide_eq_true (Nat.not_lt.1 low)
      · contradiction
  · contradiction

theorem Outline.intakeParcels {s t : State} (h : Outline s t) (hs : IntakeParcelLaw s) : IntakeParcelLaw t := by
  unfold IntakeParcelLaw
  rw [h.intake]
  exact hs

theorem CommandShape.intakeParcels {s t : State} (h : CommandShape s t) (hs : IntakeParcelLaw s) :
    IntakeParcelLaw t := by
  cases h with
  | work w => exact w.outline.intakeParcels hs
  | configured =>
    rw [State.wake_eq]
    exact hs
  | rampWritten | deliverySet | flushed => exact hs
  | intakeSet =>
    unfold IntakeParcelLaw
    rw [IntakePort.configure_eq]
    exact hs
  | intakeResumed =>
    unfold IntakeParcelLaw
    rw [IntakePort.repace_eq]
    exact hs
  | partReset =>
    simp only [IntakeParcelLaw, State.resetPart, IntakePort.resetPart, IntakePort.repace_eq]
    exact fun p hp => nomatch hp

theorem State.intakeParcels_endTransmission {s : State} (hs : IntakeParcelLaw s) :
    IntakeParcelLaw s.endTransmission := by
  unfold State.endTransmission
  split
  · exact hs
  · exact hs
  · obtain ⟨l, moved⟩ := State.waitServed_move { s with delivery := s.delivery.endSample }
    have served := moved.outline.intakeParcels (s := { s with delivery := s.delivery.endSample }) hs
    rw [State.endSampleTransmission_eq]
    dsimp only
    split <;> exact served

theorem Effect.intakeParcels {s t : State} (h : Effect s t) (hs : IntakeParcelLaw s) : IntakeParcelLaw t := by
  cases h with
  | kept | deliveryUp | deliveryDown | started | batchExpired => exact hs
  | taken p rest r _ _ lawful => exact lawful.effect.shape.intakeParcels (s := s.beginTake rest) hs
  | intakeArrived rx parcel =>
    unfold IntakeParcelLaw
    obtain same | ⟨p, good, _, joined⟩ := s.queue_intakeArrival rx
    · rw [same]
      exact hs
    · rw [joined]
      intro q hq
      obtain old | new := List.mem_append.1 hq
      · exact hs q old
      · rw [List.mem_singleton.1 new]
        exact intakeVerdict_inRange parcel good
  | intakeUp =>
    simp only [IntakeParcelLaw, IntakePort.linkUp, IntakePort.startPace_eq]
    exact hs
  | intakeDown receiving =>
    unfold IntakePort.linkDown
    cases receiving <;> exact hs
  | paceEnded =>
    unfold IntakePort.paceEnd
    split
    · simp only [IntakeParcelLaw, IntakePort.startPace_eq]
      exact hs
    · exact hs
  | offered p rest _ =>
    have answered := (s.answer_work p).outline.intakeParcels hs
    have gone : ∀ c, ∀ q ∈ ((s.answer p).2.intake.dequeue c).queue, q.inRange = true := fun c q hq => by
      simp only [IntakePort.dequeue, IntakePort.repace_eq, IntakePort.clearOverrun_eq] at hq
      exact answered q (List.mem_of_mem_tail hq)
    cases (s.answer p).1 with
    | take => exact gone _
    | discard => exact gone _
    | wait => exact answered
  | returnArrived rx =>
    unfold State.returnArrival
    cases returnVerdict rx <;> exact hs
  | ended => exact State.intakeParcels_endTransmission hs
  | starved l _ => exact (s.expireLane_work l).outline.intakeParcels hs
  | repairTaken => exact s.takeRepair_work.outline.intakeParcels hs
  | repairCompleted => exact s.completeRepair_work.outline.intakeParcels hs

theorem step_keeps_intakeParcels {s t : State} (h : step s = .next t) (hs : IntakeParcelLaw s) : IntakeParcelLaw t := by
  refine step_keeps (P := IntakeParcelLaw) (fun s q hs => hs) (fun s t effect hs => ?_) h hs
  obtain _ | level | effect := effect
  · unfold State.tick
    split <;> exact hs
  · exact fun p hp => nomatch hp
  obtain level | _ | ⟨_, effect⟩ := effect
  · unfold State.readyChanged
    split <;> exact hs
  · exact hs
  · exact effect.intakeParcels hs

end Sys2Proof.Machine
end

section
/-! What a move of a lane makes of each lane's entry (`LaneStep`), and the laws of single entries that follow: the gate and
the timer (R25, R106) and the record and allocation (R2, R3, R6). -/

namespace Sys2Proof.Machine

/-! ### The steps of one entry -/

/-- A lane that takes a new state, its timer stopping unless it is RUNNING with no stall pending (R25). -/
def Lane.inState (ln : Lane) (st : LaneState) : Lane :=
  { ln with state := st, timer := if st = .running false then ln.timer else ln.timer.stop }

/-- What the events of the lanes can make of one lane's entry. -/
inductive LaneStep : Lane → Lane → Prop
  | refl (x : Lane) : LaneStep x x
  | trans {x y z : Lane} : LaneStep x y → LaneStep y z → LaneStep x z
  | inner {x y : Lane} : x.Inner y → LaneStep x y
  | det (x : Lane) (d : Detector) : LaneStep x { x with det := d }
  | gate (x : Lane) (b : AssemblyBody) : LaneStep x { x with gate := x.gateAfter b }
  | hum (x : Lane) (h : LaneHum) : LaneStep x { x with hum := h }
  | state (x : Lane) (st : LaneState) : x.state ≠ .off → st ≠ .off → LaneStep x (x.inState st)
  | off (x : Lane) : LaneStep x (x.inState .off).clearedOff
  | started (x : Lane) : x.state ≠ .off → LaneStep x x.started

/-- Of the lanes only the hum states may differ. -/
def HumOnly (s t : State) : Prop := ∀ m : LaneId, ∃ h, t.lane m = { s.lane m with hum := h }

theorem HumOnly.of_lanes {s t : State} (h : ∀ m, t.lane m = s.lane m) : HumOnly s t := fun m => ⟨(s.lane m).hum, h m⟩

theorem HumOnly.refl (s : State) : HumOnly s s := .of_lanes fun _ => rfl

theorem HumOnly.trans {s t u : State} (h : HumOnly s t) (k : HumOnly t u) : HumOnly s u := fun m => by
  obtain ⟨a, ha⟩ := h m
  obtain ⟨b, hb⟩ := k m
  exact ⟨b, by rw [hb, ha]⟩

theorem HumOnly.laneStep {s t : State} (h : HumOnly s t) (m : LaneId) : LaneStep (s.lane m) (t.lane m) := by
  obtain ⟨a, ha⟩ := h m
  rw [ha]
  exact .hum _ a

theorem HumOnly.modHum (s : State) (l : LaneId) (f : LaneHum → LaneHum) : HumOnly s (s.modHum l f) := fun m => by
  by_cases hm : m = l
  · subst hm
    exact ⟨_, s.lane_modHum_same m f⟩
  · exact ⟨_, s.lane_modHum_ne f hm⟩

theorem HumOnly.swap (s : State) (k : ProfileId) (a : Option LaneId) (q : SeqNum) : HumOnly s (s.swap k a q) := fun m => by
  rw [State.lane_swap]
  unfold Lane.reducePhase
  split
  · exact ⟨_, rfl⟩
  · exact ⟨_, rfl⟩

theorem HumOnly.userLeft (s : State) (k : Option ProfileId) : HumOnly s (s.userLeft k) := by
  unfold State.userLeft State.swapIfUnused
  split
  · split
    · exact .swap s _ _ _
    · exact .refl s
  · exact .refl s

theorem HumOnly.humBegin (s : State) (l : LaneId) (p : Option ProfileId) (seq : SeqNum) :
    HumOnly s (s.humBegin l p seq) := by
  unfold State.humBegin
  split
  · rename_i k
    have swapped : HumOnly s (if (s.profile k).swapPending then s.swap k (some l) seq else s) := by
      split
      · exact .swap s _ _ _
      · exact .refl s
    dsimp only
    generalize (if (s.profile k).swapPending then s.swap k (some l) seq else s) = s1 at swapped ⊢
    generalize (s1.lane l).hum.profile = old
    have turned : HumOnly s
        (if old ≠ some k ∨ (s1.lane l).hum.restart = true then
          s1.modHum l fun _ => { profile := some k, index := (s1.profile k).restartIndex, restart := false }
        else s1) := by
      split
      · exact swapped.trans (.modHum s1 l _)
      · exact swapped
    split
    · exact turned.trans (.userLeft _ _)
    · exact turned
  · exact (HumOnly.modHum s l _).trans (.userLeft _ _)

theorem State.humOnly_leftBy (u : State) (l : LaneId) (old : Option ProfileId) : HumOnly u (u.leftBy l old) := fun m =>
  ⟨_, u.lane_leftBy l old m⟩

/-- A change of state changes the lane's state and timer, and the phase indices at most (R25, R38). -/
theorem State.lane_changeState (s : State) (l : LaneId) (st : LaneState) (m : LaneId) :
    ∃ h, (s.changeState l st).lane m = { (if m = l then (s.lane l).inState st else s.lane m) with hum := h } := by
  have entry : ((s.modLane l fun ln => ln.inState st).wake l).lane m
      = if m = l then (s.lane l).inState st else s.lane m := by
    rw [State.lane_wake]
    by_cases hm : m = l
    · subst hm
      rw [State.lane_modLane_same, if_pos rfl]
    · rw [State.lane_modLane_ne s _ hm, if_neg hm]
  by_cases leaves : (s.lane l).state.isRunning = true ∧ st.isRunning = false
  · rw [State.changeState_leaving s l st leaves.1 leaves.2, ← entry]
    exact State.humOnly_leftBy _ l _ m
  · have stays : (s.lane l).state.isRunning = false ∨ st.isRunning = true := by
      rwa [not_and_or, Bool.not_eq_true, Bool.not_eq_false] at leaves
    rw [State.changeState_staying s l st stays, ← entry]
    exact ⟨_, rfl⟩

theorem State.lane_becomeOff_same (s : State) (l : LaneId) :
    (s.becomeOff l).lane l = ((s.lane l).inState .off).clearedOff := by
  unfold State.becomeOff
  rw [State.lane_modLane_same]
  obtain ⟨h, changed⟩ := s.lane_changeState l .off l
  rw [changed, if_pos rfl]
  rfl

theorem State.lane_becomeOff_ne (s : State) {l m : LaneId} (hm : m ≠ l) :
    ∃ h, (s.becomeOff l).lane m = { s.lane m with hum := h } := by
  unfold State.becomeOff
  rw [State.lane_modLane_ne _ _ hm]
  obtain ⟨h, changed⟩ := s.lane_changeState l .off m
  rw [changed, if_neg hm]
  exact ⟨h, rfl⟩

theorem CheckerOnly.laneStep {s t : State} (h : CheckerOnly s t) (m : LaneId) : LaneStep (s.lane m) (t.lane m) := by
  rw [h.lane]
  exact .refl _

/-- A move of a lane is a step of every lane's entry. -/
theorem LaneMove.laneStep {l : LaneId} {s t : State} (h : LaneMove l s t) (m : LaneId) :
    LaneStep (s.lane m) (t.lane m) := by
  have modLane : ∀ (u : State) (f : Lane → Lane), LaneStep (u.lane l) (f (u.lane l)) →
      LaneStep (u.lane m) ((u.modLane l f).lane m) := fun u f step => by
    by_cases hm : m = l
    · subst hm
      rw [State.lane_modLane_same]
      exact step
    · rw [State.lane_modLane_ne u f hm]
      exact .refl _
  induction h with
  | refl s => exact .refl _
  | trans _ _ h k => exact h.trans k
  | entry s f inner => exact modLane s f (.inner (inner _))
  | newRun s r _ => exact modLane s _ (.det _ _)
  | gate s b => exact modLane s _ (.gate _ b)
  | units | issue | push | headWaiting => exact .refl _
  | phase s f _ _ => exact (HumOnly.modHum s l f).laneStep m
  | humBegin s p seq => exact (HumOnly.humBegin s l p seq).laneStep m
  | changeState s st was isnt =>
    obtain ⟨h, changed⟩ := s.lane_changeState l st m
    rw [changed]
    refine LaneStep.trans ?_ (.hum _ h)
    split
    · rename_i hm
      subst hm
      exact .state _ st was isnt
    · exact .refl _
  | becomeOff s =>
    by_cases hm : m = l
    · subst hm
      rw [State.lane_becomeOff_same]
      exact .off _
    · obtain ⟨h, changed⟩ := s.lane_becomeOff_ne hm
      rw [changed]
      exact .hum _ h
  | enterRunning s was =>
    rw [State.lane_enterRunning]
    split
    · rename_i hm
      subst hm
      exact .started _ was
    · exact .refl _
  | checkerLoss s seq d => exact (s.checkerLoss_only l seq d).laneStep m
  | checkerParcel s seq ws _ _ => exact (s.checkerParcel_only l seq ws).laneStep m

/-! ### The commands that change more of a lane than its hum state -/

/-- The commands outside the moves of a lane that change a record, a state, a ramp table or the whole part. -/
inductive CommandRecord (s : State) : State → Prop
  | configured (l : LaneId) (c : LaneConfig) : ConfigInRange c →
      ((s.lane l).state = .off ∨ (s.lane l).config.changesFixed c = false) →
      CommandRecord s ((s.modLane l fun ln => { ln with config := c }).wake l)
  | armed (l : LaneId) : (s.lane l).state = .off → (s.lane l).config.allocation ≤ s.freePlaces →
      CommandRecord s (s.armLane l)
  | rampWritten (t : RampId) (g : Vector Nat 16) : (∀ x ∈ g.toList, x ≤ 256) →
      CommandRecord s { s with ramps := s.ramps.set t g }
  | partReset : CommandRecord s s.resetPart

theorem Lane.markRestart_humOnly (ln : Lane) (k : ProfileId) : ∃ h, ln.markRestart k = { ln with hum := h } := by
  unfold Lane.markRestart
  split
  · exact ⟨_, rfl⟩
  · exact ⟨_, rfl⟩

theorem State.lane_map (s : State) (f : Lane → Lane) (m : LaneId) :
    ({ s with lanes := s.lanes.map f } : State).lane m = f (s.lane m) := by
  simp [State.lane]

theorem CommandRest.humOnly_or_record {s t : State} (h : CommandRest s t) :
    HumOnly s t ∧ t.ramps = s.ramps ∨ CommandRecord s t := by
  cases h with
  | configured l c range fixed => exact .inr (.configured l c range fixed)
  | armed l off space => exact .inr (.armed l off space)
  | bankWritten | humSet | humCommitted | checkerLatched => exact .inl ⟨.of_lanes fun _ => rfl, rfl⟩
  | humSwapped k _ => exact .inl ⟨(HumOnly.of_lanes fun _ => rfl).trans (.swap _ _ _ _), rfl⟩
  | resynced k =>
    refine .inl ⟨fun m => ?_, rfl⟩
    rw [State.lane_map]
    exact (s.lane m).markRestart_humOnly k
  | rampWritten t g gains => exact .inr (.rampWritten t g gains)
  | checkerSet c seq d =>
    have only := State.checkerSearch_only { s with checker := c } seq d
    exact .inl ⟨.of_lanes fun m => only.lane m, by rw [only.1]⟩
  | partReset => exact .inr .partReset

/-! ### Gates, ramps and timers -/

/-- The gate stays in a state of R106 as long as the hold count is at most 255 (R107). -/
theorem Gate.lawful_after {g : Gate} {o c h p : Nat} (bound : h ≤ 255) (lawful : g.lawful = true) :
    (g.after o c h p).lawful = true := by
  cases g with
  | opened => simp only [Gate.after]; split_ifs <;> rfl
  | holding n =>
    simp only [Gate.lawful, Bool.and_eq_true, decide_eq_true_eq] at lawful
    simp only [Gate.after]
    split_ifs
    · rfl
    · rfl
    · simp only [Gate.lawful, Bool.and_eq_true, decide_eq_true_eq]
      omega
    · rfl
  | closing i =>
    simp only [Gate.lawful, Bool.and_eq_true, decide_eq_true_eq] at lawful
    simp only [Gate.after]
    split_ifs
    · rfl
    · rfl
    · simp only [Gate.lawful, Bool.and_eq_true, decide_eq_true_eq]
      omega
  | closed => simp only [Gate.after]; split_ifs <;> rfl

/-- A lane's record lies in range and its gate is lawful. -/
def Lane.GateOk (x : Lane) : Prop := ConfigInRange x.config ∧ x.gate.lawful = true

theorem ConfigInRange.holdCount_le {c : LaneConfig} (h : ConfigInRange c) : c.holdCount ≤ 255 := by
  obtain ⟨_, _, _, _, _, _, _, _, _, _, _, _, _, hold, _⟩ := h
  exact hold.2

theorem ConfigInRange.starvationTime_le {c : LaneConfig} (h : ConfigInRange c) : c.starvationTime ≤ 255 := by
  obtain ⟨_, _, _, _, _, _, _, _, _, _, _, _, _, _, _, _, time⟩ := h
  exact time

theorem LaneStep.gateOk {x y : Lane} (h : LaneStep x y) : x.GateOk → y.GateOk := by
  induction h with
  | refl => exact id
  | trans _ _ h k => exact fun c => k (h c)
  | inner same =>
    rintro ⟨range, lawful⟩
    exact ⟨by rw [same.config]; exact range, by rw [same.gate]; exact lawful⟩
  | det | hum | state => exact id
  | gate x b =>
    rintro ⟨range, lawful⟩
    refine ⟨range, ?_⟩
    simp only [Lane.gateAfter]
    split_ifs
    · exact Gate.lawful_after range.holdCount_le lawful
    · exact lawful
    · rfl
  | off x => exact fun c => ⟨c.1, rfl⟩
  | started x _ =>
    rintro ⟨range, lawful⟩
    refine ⟨range, ?_⟩
    simp only [Lane.started]
    split
    · rfl
    · exact lawful

theorem LaneStep.timerLaw {x y : Lane} (h : LaneStep x y) (hx : x.GateOk ∧ TimerLaw x) : y.GateOk ∧ TimerLaw y := by
  have stopped : ∀ {z : Lane} {st : LaneState}, TimerLaw z →
      (z.timer.stop.counting = true → st = .running false) ∧ z.timer.stop.remaining ≤ 255 := fun law =>
    ⟨fun c => by simp [Timer.stop] at c, law.2⟩
  obtain ⟨ok, law⟩ := hx
  refine ⟨h.gateOk ok, ?_⟩
  induction h with
  | refl => exact law
  | trans h _ first second => exact second (h.gateOk ok) (first ok law)
  | inner same =>
    obtain kept | stop := same.timer
    · unfold TimerLaw
      rw [kept, same.state]
      exact law
    · unfold TimerLaw
      rw [stop]
      exact stopped law
  | det | gate | hum => exact law
  | state x st _ _ =>
    by_cases running : st = .running false
    · subst running
      exact ⟨fun _ => rfl, law.2⟩
    · unfold TimerLaw Lane.inState
      rw [if_neg running]
      exact stopped law
  | off x => exact stopped law
  | started x _ => exact ⟨fun _ => rfl, ok.1.starvationTime_le⟩

theorem Lane.gateOk_cleared {c : LaneConfig} (h : ConfigInRange c) : (Lane.cleared c).GateOk := ⟨h, rfl⟩

theorem Lane.timerLaw_cleared (c : LaneConfig) : TimerLaw (Lane.cleared c) :=
  ⟨fun counting => by simp [Lane.cleared, Timer.idle] at counting, Nat.zero_le _⟩

theorem configInRange_default : ConfigInRange LaneConfig.default := by decide

theorem State.lane_reset (m : LaneId) : State.reset.lane m = Lane.powerOn := by
  simp [State.lane, State.reset]

theorem State.lane_resetPart (s : State) (m : LaneId) : s.resetPart.lane m = Lane.cleared (s.lane m).config := by
  simp [State.resetPart, State.lane]

/-- A lane's record replaced, and a waiting head offered again (R4). -/
theorem State.lane_configured (s : State) (l : LaneId) (c : LaneConfig) (m : LaneId) :
    ((s.modLane l fun ln => { ln with config := c }).wake l).lane m =
      if m = l then { s.lane l with config := c } else s.lane m := by
  rw [State.lane_wake]
  by_cases hm : m = l
  · subst hm
    rw [State.lane_modLane_same, if_pos rfl]
  · rw [State.lane_modLane_ne s _ hm, if_neg hm]

theorem State.lane_armLane {s : State} {l : LaneId} (off : (s.lane l).state = .off) (m : LaneId) :
    (s.armLane l).lane m =
      if m = l then
        { s.lane l with
          state := .armed
          allocation := (s.lane l).config.allocation
          expected := none
          timer := (s.lane l).timer.stop }
      else s.lane m := by
  rw [State.armLane_of_off off]
  unfold State.lane
  by_cases hm : m = l
  · subst hm
    simp
  · have h' : (l : Nat) ≠ (m : Nat) := fun e => hm (Fin.ext e.symm)
    simp [Vector.getElem_set_ne, h', hm]

/-- The gate law and the timer law of every lane. -/
def State.TimersInOrder (s : State) : Prop := ∀ l : LaneId, (s.lane l).GateOk ∧ TimerLaw (s.lane l)

/-- The gains of the ramps are in range (R110). -/
def State.GainsInRange (s : State) : Prop := ∀ t : RampId, ∀ g ∈ (s.ramps[t]).toList, g ≤ 256

theorem gateLaw_iff (s : State) : GateLaw s ↔ (∀ l, (s.lane l).GateOk) ∧ s.GainsInRange := Iff.rfl

theorem SameBlocks.forall_lane {s t : State} (h : SameBlocks s t) {Q : Lane → Prop} (hs : ∀ l, Q (s.lane l)) (l : LaneId) :
    Q (t.lane l) := by
  rw [h.lane]
  exact hs l

theorem State.forall_modLane {s : State} {l : LaneId} {f : Lane → Lane} {Q : Lane → Prop} (hs : ∀ m, Q (s.lane m))
    (h : Q (f (s.lane l))) (m : LaneId) : Q ((s.modLane l f).lane m) := by
  by_cases hm : m = l
  · subst hm
    rw [State.lane_modLane_same]
    exact h
  · rw [State.lane_modLane_ne s f hm]
    exact hs m

theorem step_keeps_gains {s t : State} (h : step s = .next t) (hs : s.GainsInRange) : t.GainsInRange := by
  refine step_keeps_blocks (P := State.GainsInRange) (fun same hs => ?_) (fun move hs => ?_) (fun rest hs => ?_)
    (fun s l hs => hs) (fun s hs => hs) ?_ h hs
  · unfold State.GainsInRange
    rw [same.ramps]
    exact hs
  · unfold State.GainsInRange
    rw [move.outline.ramps]
    exact hs
  · obtain ⟨_, ramps⟩ | record := rest.humOnly_or_record
    · unfold State.GainsInRange
      rw [ramps]
      exact hs
    · cases record with
      | configured l c _ _ =>
        unfold State.GainsInRange
        rw [State.ramps_wake]
        exact hs
      | armed l off _ =>
        rw [State.armLane_of_off off]
        exact hs
      | rampWritten t g gains =>
        intro u
        by_cases same : u = t
        · subst same
          simpa using gains
        · have different : (t : Nat) ≠ (u : Nat) := fun e => same (Fin.ext e.symm)
          simpa [Vector.getElem_set_ne, different] using hs u
      | partReset => exact hs
  · have gains : ∀ g ∈ rampPowerOn.toList, g ≤ 256 := by decide
    intro t
    simpa [State.reset] using gains

theorem step_keeps_gates {s t : State} (h : step s = .next t) (hs : ∀ l, (s.lane l).GateOk) : ∀ l, (t.lane l).GateOk := by
  refine step_keeps_blocks (P := fun s => ∀ l, (s.lane l).GateOk) (fun same hs => same.forall_lane hs)
    (fun move hs m => (move.laneStep m).gateOk (hs m)) (fun {s t} rest hs m => ?_)
    (fun s l hs => State.forall_modLane hs (hs l)) (fun s hs m => ?_) (fun m => ?_) h hs
  · obtain ⟨hum, _⟩ | record := rest.humOnly_or_record
    · exact (hum.laneStep m).gateOk (hs m)
    · cases record with
      | configured l c range _ =>
        rw [State.lane_configured]
        split
        · exact ⟨range, (hs l).2⟩
        · exact hs m
      | armed l off _ =>
        rw [State.lane_armLane off]
        split
        · exact hs l
        · exact hs m
      | rampWritten => exact hs m
      | partReset =>
        rw [State.lane_resetPart]
        exact Lane.gateOk_cleared (hs m).1
  · rw [State.lane_map]
    exact hs m
  · rw [State.lane_reset]
    exact Lane.gateOk_cleared configInRange_default

theorem Timer.remaining_tick_le (t : Timer) : t.tick.remaining ≤ t.remaining := by
  unfold Timer.tick
  split
  · exact Nat.sub_le _ _
  · exact Nat.le_refl _

theorem Timer.counting_tick (t : Timer) : t.tick.counting = t.counting := by
  unfold Timer.tick
  split <;> rfl

theorem Lane.timerLaw_tick {x : Lane} (h : TimerLaw x) : TimerLaw x.tick := by
  obtain ⟨counting, remaining⟩ := h
  refine ⟨fun c => counting ?_, (Timer.remaining_tick_le _).trans remaining⟩
  rw [← Timer.counting_tick]
  exact c

theorem Lane.timerLaw_reload {x : Lane} (h : x.GateOk) : TimerLaw x.reloadTimer := by
  refine ⟨fun c => ?_, h.1.starvationTime_le⟩
  simp only [Lane.reloadTimer, Bool.and_eq_true, decide_eq_true_eq] at c
  exact c.1

theorem step_keeps_timers {s t : State} (h : step s = .next t) (hs : s.TimersInOrder) : t.TimersInOrder := by
  refine step_keeps_blocks (P := fun s => ∀ l, (s.lane l).GateOk ∧ TimerLaw (s.lane l))
    (fun same hs => same.forall_lane (Q := fun x => x.GateOk ∧ TimerLaw x) hs)
    (fun move hs m => (move.laneStep m).timerLaw (hs m)) (fun {s t} rest hs m => ?_)
    (fun s l hs => State.forall_modLane (Q := fun x => x.GateOk ∧ TimerLaw x) hs ⟨(hs l).1, Lane.timerLaw_reload (hs l).1⟩)
    (fun s hs m => ?_) (fun m => ?_) h hs
  · obtain ⟨hum, _⟩ | record := rest.humOnly_or_record
    · exact (hum.laneStep m).timerLaw (hs m)
    · cases record with
      | configured l c range _ =>
        rw [State.lane_configured]
        split
        · exact ⟨⟨range, (hs l).1.2⟩, (hs l).2⟩
        · exact hs m
      | armed l off _ =>
        rw [State.lane_armLane off]
        split
        · exact ⟨(hs l).1, fun counting => by simp [Timer.stop] at counting, (hs l).2.2⟩
        · exact hs m
      | rampWritten => exact hs m
      | partReset =>
        rw [State.lane_resetPart]
        exact ⟨Lane.gateOk_cleared (hs m).1.1, Lane.timerLaw_cleared _⟩
  · rw [State.lane_map]
    exact ⟨(hs m).1, Lane.timerLaw_tick (hs m).2⟩
  · rw [State.lane_reset]
    exact ⟨Lane.gateOk_cleared configInRange_default, Lane.timerLaw_cleared _⟩

/-- Settles O54: each law is carried over the events that touch what it speaks of. -/
theorem stepsKeepPortTimerAndGateLaws : Obligations.StepsKeepPortTimerAndGateLaws := by
  refine fun s t h => ⟨step_keeps_transmission h, step_keeps_intakeParcels h, ?_, ?_⟩
  · rw [gateLaw_iff, gateLaw_iff]
    exact fun ⟨gates, gains⟩ => ⟨step_keeps_gates h gates, step_keeps_gains h gains⟩
  · rintro ⟨gates, _⟩ timers l
    exact (step_keeps_timers h (fun m => ⟨gates m, timers m⟩) l).2

/-! ### Hold memory -/

/-- A lane's record lies in range and its allocation is the one R3 and R6 give. -/
def Lane.MemoryOk (x : Lane) : Prop :=
  ConfigInRange x.config ∧ x.allocation = if x.state = .off then 0 else x.config.allocation

theorem LaneStep.memoryOk {x y : Lane} (h : LaneStep x y) : x.MemoryOk → y.MemoryOk := by
  induction h with
  | refl => exact id
  | trans _ _ h k => exact fun c => k (h c)
  | inner same =>
    unfold Lane.MemoryOk
    rw [same.config, same.allocation, same.state]
    exact id
  | det | hum | gate => exact id
  | state x st was isnt =>
    rintro ⟨range, places⟩
    rw [if_neg was] at places
    exact ⟨range, places.trans (if_neg isnt).symm⟩
  | off x => exact fun c => ⟨c.1, rfl⟩
  | started x was =>
    rintro ⟨range, places⟩
    rw [if_neg was] at places
    exact ⟨range, places⟩

/-- Only the start of a lane takes places (R6, R7). -/
theorem LaneStep.allocation_le {x y : Lane} (h : LaneStep x y) : y.allocation ≤ x.allocation := by
  induction h with
  | refl => exact Nat.le_refl _
  | trans _ _ h k => exact k.trans h
  | inner same => exact same.allocation.le
  | det | hum | gate | state | started => exact Nat.le_refl _
  | off x => exact Nat.zero_le _

theorem State.toList_lanes (s : State) : s.lanes.toList = (List.finRange 16).map s.lane := by
  refine List.ext_getElem (by simp) fun i h h' => ?_
  simp [State.lane]

/-- The sum of the allocations, lane by lane. -/
theorem State.sum_allocation (s : State) :
    (s.lanes.toList.map Lane.allocation).sum = ∑ l : LaneId, (s.lane l).allocation := by
  rw [State.toList_lanes, List.map_map, Fin.sum_univ_def]
  rfl

theorem holdMemoryLaw_iff (s : State) :
    HoldMemoryLaw s ↔ (∀ l, (s.lane l).MemoryOk) ∧ ∑ l : LaneId, (s.lane l).allocation ≤ 24576 := by
  rw [← State.sum_allocation]
  exact Iff.rfl

/-- The allocations stay within the places where no lane's grows. -/
theorem State.sum_allocation_le {s t : State} (h : ∀ m, (t.lane m).allocation ≤ (s.lane m).allocation)
    (hs : ∑ l : LaneId, (s.lane l).allocation ≤ 24576) : ∑ l : LaneId, (t.lane l).allocation ≤ 24576 :=
  (Finset.sum_le_sum fun m _ => h m).trans hs

/-- An OFF lane that is armed takes no more than the free places (R6, R7). -/
theorem State.sum_allocation_armLane {s : State} {l : LaneId} (off : (s.lane l).state = .off)
    (none : (s.lane l).allocation = 0) (space : (s.lane l).config.allocation ≤ s.freePlaces)
    (hs : ∑ m : LaneId, (s.lane m).allocation ≤ 24576) : ∑ m : LaneId, ((s.armLane l).lane m).allocation ≤ 24576 := by
  have grown : ∀ m : LaneId, ((s.armLane l).lane m).allocation =
      (s.lane m).allocation + if m = l then (s.lane l).config.allocation else 0 := fun m => by
    rw [State.lane_armLane off]
    by_cases hm : m = l
    · subst hm
      rw [if_pos rfl, if_pos rfl, none, Nat.zero_add]
    · rw [if_neg hm, if_neg hm, Nat.add_zero]
  simp only [grown, Finset.sum_add_distrib, Finset.sum_ite_eq', Finset.mem_univ, if_true]
  unfold State.freePlaces at space
  rw [State.sum_allocation, Config.holdPlaces] at space
  omega

/-- A new record that keeps the fields that are not live keeps the places it asks for (R2, R4). -/
theorem LaneConfig.allocation_of_fixed {c d : LaneConfig} (h : c.changesFixed d = false) :
    d.allocation = c.allocation := by
  simp only [LaneConfig.changesFixed, Bool.or_eq_false_iff, decide_eq_false_iff_not, not_not, Bool.and_eq_false_iff,
    Bool.not_eq_false', Bool.and_eq_true] at h
  obtain ⟨⟨⟨⟨_, lookahead⟩, limit⟩, slack⟩, route | ⟨new, old⟩⟩ := h
  · unfold LaneConfig.allocation
    rw [lookahead, limit, slack, route]
  · unfold LaneConfig.allocation
    rw [lookahead, limit, slack, new, old]

/-- Settles O53: only START_LANE takes places, after its test of the free ones, and a record changes under a lane that is
not OFF only where its places stay the same. -/
theorem stepsKeepHoldMemoryInBounds : Obligations.StepsKeepHoldMemoryInBounds := by
  intro s t hs h
  rw [holdMemoryLaw_iff] at hs ⊢
  refine step_keeps_blocks
    (P := fun s => (∀ l, (s.lane l).MemoryOk) ∧ ∑ l : LaneId, (s.lane l).allocation ≤ 24576)
    (fun same ⟨ok, sum⟩ => ⟨same.forall_lane ok, by simpa only [same.lane] using sum⟩)
    (fun move ⟨ok, sum⟩ => ⟨fun m => (move.laneStep m).memoryOk (ok m),
      State.sum_allocation_le (fun m => (move.laneStep m).allocation_le) sum⟩)
    (fun {s t} rest ⟨ok, sum⟩ => ?_)
    (fun s l ⟨ok, sum⟩ => ⟨State.forall_modLane ok (ok l), State.sum_allocation_le ?_ sum⟩)
    (fun s ⟨ok, sum⟩ => ⟨fun m => by rw [State.lane_map]; exact ok m, State.sum_allocation_le ?_ sum⟩)
    ⟨fun m => ?_, ?_⟩ h hs
  · obtain ⟨hum, _⟩ | record := rest.humOnly_or_record
    · exact ⟨fun m => (hum.laneStep m).memoryOk (ok m), State.sum_allocation_le (fun m => (hum.laneStep m).allocation_le) sum⟩
    · cases record with
      | configured l c range fixed =>
        refine ⟨fun m => ?_, State.sum_allocation_le (fun m => ?_) sum⟩
        · rw [State.lane_configured]
          split
          · obtain ⟨_, places⟩ := ok l
            refine ⟨range, places.trans ?_⟩
            obtain off | fixed := fixed
            · exact (if_pos off).trans (if_pos off).symm
            · dsimp only
              rw [LaneConfig.allocation_of_fixed fixed]
          · exact ok m
        · rw [State.lane_configured]
          split
          · rename_i hm
            subst hm
            exact Nat.le_refl _
          · exact Nat.le_refl _
      | armed l off space =>
        obtain ⟨range, places⟩ := ok l
        refine ⟨fun m => ?_, State.sum_allocation_armLane off (places.trans (if_pos off)) space sum⟩
        rw [State.lane_armLane off]
        split
        · exact ⟨range, rfl⟩
        · exact ok m
      | rampWritten => exact ⟨ok, sum⟩
      | partReset =>
        refine ⟨fun m => ?_, State.sum_allocation_le (fun m => ?_) sum⟩
        · rw [State.lane_resetPart]
          exact ⟨(ok m).1, rfl⟩
        · rw [State.lane_resetPart]
          exact Nat.zero_le _
  · intro m
    by_cases hm : m = l
    · subst hm
      rw [State.lane_modLane_same]
      exact Nat.le_refl _
    · rw [State.lane_modLane_ne s _ hm]
  · intro m
    rw [State.lane_map]
    exact Nat.le_refl _
  · rw [State.lane_reset]
    exact ⟨configInRange_default, rfl⟩
  · simp only [State.lane_reset]
    decide

end Sys2Proof.Machine
end

section
/-! The run table (R51): a number enters a lane's run list only when no lane uses it. -/

namespace Sys2Proof.Machine

/-- The numbers of a lane's run records, in list order. -/
def Lane.runNumbers (x : Lane) : List Nat := x.det.runs.map RunRecord.number

theorem State.usedRuns_eq (s : State) : s.usedRuns = (List.finRange 16).flatMap fun l => (s.lane l).runNumbers := by
  unfold State.usedRuns
  rw [State.toList_lanes, List.flatMap_map]
  rfl

theorem State.mem_usedRuns {s : State} {n : Nat} : n ∈ s.usedRuns ↔ ∃ l, n ∈ (s.lane l).runNumbers := by
  rw [State.usedRuns_eq]
  simp

/-- The law of R51 lane by lane: each number is below 64 and stands once, in one lane's list. -/
structure State.RunsApart (s : State) : Prop where
  once : ∀ l, (s.lane l).runNumbers.Nodup
  apart : ∀ l m, l ≠ m → ∀ n ∈ (s.lane l).runNumbers, n ∉ (s.lane m).runNumbers
  bound : ∀ l, ∀ n ∈ (s.lane l).runNumbers, n < 64

theorem runTableLaw_iff (s : State) : RunTableLaw s ↔ s.RunsApart := by
  have bounds : (∀ n ∈ s.usedRuns, n < 64) ↔ ∀ l, ∀ n ∈ (s.lane l).runNumbers, n < 64 := by
    simp only [State.mem_usedRuns]
    exact ⟨fun h l n hn => h n ⟨l, hn⟩, fun h n ⟨l, hn⟩ => h l n hn⟩
  constructor
  · rintro ⟨nodup, low⟩
    rw [State.usedRuns_eq, List.nodup_flatMap] at nodup
    obtain ⟨once, apart⟩ := nodup
    refine ⟨fun l => once l (List.mem_finRange l), fun l m ne n hl hm => ?_, bounds.1 low⟩
    have symm : Std.Symm (Function.onFun List.Disjoint fun l => (s.lane l).runNumbers) := ⟨fun _ _ h => h.symm⟩
    exact apart.forall (List.mem_finRange l) (List.mem_finRange m) ne hl hm
  · rintro ⟨once, apart, low⟩
    refine ⟨?_, bounds.2 low⟩
    rw [State.usedRuns_eq, List.nodup_flatMap]
    exact ⟨fun l _ => once l, (List.nodup_finRange 16).pairwise_of_forall_ne fun l _ m _ ne n hl hm => apart l m ne n hl hm⟩

/-- Records that go, or change under their numbers, leave the law. -/
theorem State.RunsApart.of_sublist {s t : State} (h : ∀ m, (t.lane m).runNumbers.Sublist (s.lane m).runNumbers)
    (hs : s.RunsApart) : t.RunsApart where
  once l := (hs.once l).sublist (h l)
  apart l m ne n hl hm := hs.apart l m ne n ((h l).subset hl) ((h m).subset hm)
  bound l n hl := hs.bound l n ((h l).subset hl)

theorem HumOnly.runNumbers {s t : State} (h : HumOnly s t) (m : LaneId) :
    (t.lane m).runNumbers = (s.lane m).runNumbers := by
  obtain ⟨a, ha⟩ := h m
  rw [ha]
  rfl

theorem State.freeRun?_eq_some {s : State} {n : Nat} (h : s.freeRun? = some n) : n < 64 ∧ n ∉ s.usedRuns := by
  unfold State.freeRun? at h
  have low := List.mem_of_find?_eq_some h
  have free := List.find?_some h
  exact ⟨List.mem_range.1 low, by simpa using free⟩

/-- A lane's own numbers after a change of its entry alone. -/
theorem State.runNumbers_modLane (s : State) (l : LaneId) (f : Lane → Lane) (m : LaneId) :
    ((s.modLane l f).lane m).runNumbers = if m = l then (f (s.lane l)).runNumbers else (s.lane m).runNumbers := by
  by_cases hm : m = l
  · subst hm
    rw [State.lane_modLane_same, if_pos rfl]
  · rw [State.lane_modLane_ne s f hm, if_neg hm]

/-- A new record takes a number that no lane uses (R51). -/
theorem State.RunsApart.newRun {s : State} {l : LaneId} {r : RunRecord} (free : s.freeRun? = some r.number)
    (hs : s.RunsApart) :
    (s.modDet l fun d => Detector.resetCalm { d with runs := d.runs ++ [r] }).RunsApart := by
  obtain ⟨low, unused⟩ := State.freeRun?_eq_some free
  have unused : ∀ m, r.number ∉ (s.lane m).runNumbers := fun m c => unused (State.mem_usedRuns.2 ⟨m, c⟩)
  have numbers : ∀ m, ((s.modDet l fun d => Detector.resetCalm { d with runs := d.runs ++ [r] }).lane m).runNumbers
      = if m = l then (s.lane l).runNumbers ++ [r.number] else (s.lane m).runNumbers := fun m => by
    unfold State.modDet
    rw [State.runNumbers_modLane]
    simp [Lane.runNumbers, Detector.resetCalm]
  constructor
  · intro m
    rw [numbers]
    split
    · exact List.nodup_append.2 ⟨hs.once l, List.nodup_singleton _, fun a ha b hb => by
        rintro rfl
        exact unused l (List.mem_singleton.1 hb ▸ ha)⟩
    · exact hs.once m
  · intro a b ne n ha hb
    rw [numbers] at ha hb
    split at ha
    · rename_i is
      rw [if_neg fun c => ne (is.trans c.symm)] at hb
      obtain old | new := List.mem_append.1 ha
      · exact hs.apart l b (is ▸ ne) n old hb
      · exact unused b (List.mem_singleton.1 new ▸ hb)
    · split at hb
      · rename_i is
        obtain old | new := List.mem_append.1 hb
        · exact hs.apart a l (is ▸ ne) n ha old
        · exact unused a (List.mem_singleton.1 new ▸ ha)
      · exact hs.apart a b ne n ha hb
  · intro m n hn
    rw [numbers] at hn
    split at hn
    · obtain old | new := List.mem_append.1 hn
      · exact hs.bound l n old
      · exact List.mem_singleton.1 new ▸ low
    · exact hs.bound m n hn

theorem LaneMove.runsApart {l : LaneId} {s t : State} (h : LaneMove l s t) : s.RunsApart → t.RunsApart := by
  have same : ∀ {u v : State}, (∀ m, (v.lane m).runNumbers = (u.lane m).runNumbers) → u.RunsApart → v.RunsApart :=
    fun eq => .of_sublist fun m => sublist_of_eq (eq m)
  induction h with
  | refl => exact id
  | trans _ _ h k => exact fun c => k (h c)
  | entry s f inner =>
    refine .of_sublist fun m => ?_
    rw [State.runNumbers_modLane]
    split
    · rename_i hm
      subst hm
      exact (inner _).runs
    · exact .refl _
  | newRun s r free => exact State.RunsApart.newRun free
  | gate s b =>
    refine same fun m => ?_
    rw [State.runNumbers_modLane]
    split
    · rename_i hm
      subst hm
      rfl
    · rfl
  | units | issue | push | headWaiting => exact same fun _ => rfl
  | phase s f _ _ => exact same (HumOnly.modHum s l f).runNumbers
  | humBegin s p seq => exact same (HumOnly.humBegin s l p seq).runNumbers
  | changeState s st _ _ =>
    refine same fun m => ?_
    obtain ⟨h, changed⟩ := s.lane_changeState l st m
    rw [changed]
    split
    · rename_i hm
      subst hm
      rfl
    · rfl
  | becomeOff s =>
    refine same fun m => ?_
    by_cases hm : m = l
    · subst hm
      rw [State.lane_becomeOff_same]
      rfl
    · obtain ⟨h, changed⟩ := s.lane_becomeOff_ne hm
      rw [changed]
      rfl
  | enterRunning s _ =>
    refine same fun m => ?_
    rw [State.lane_enterRunning]
    split
    · rename_i hm
      subst hm
      rfl
    · rfl
  | checkerLoss s seq d => exact same fun m => by rw [(s.checkerLoss_only l seq d).lane]
  | checkerParcel s seq ws _ _ => exact same fun m => by rw [(s.checkerParcel_only l seq ws).lane]

theorem CommandRest.runsApart {s t : State} (h : CommandRest s t) (hs : s.RunsApart) : t.RunsApart := by
  refine .of_sublist (fun m => ?_) hs
  obtain ⟨hum, _⟩ | record := h.humOnly_or_record
  · exact sublist_of_eq (hum.runNumbers m)
  · cases record with
    | configured l c _ _ =>
      rw [State.lane_configured]
      split
      · rename_i hm
        subst hm
        exact .refl _
      · exact .refl _
    | armed l off _ =>
      rw [State.lane_armLane off]
      split
      · rename_i hm
        subst hm
        exact .refl _
      · exact .refl _
    | rampWritten => exact .refl _
    | partReset =>
      rw [State.lane_resetPart]
      exact List.nil_sublist _

/-- Settles O58: of all that the events do to the run lists, only the opening of a run adds a number, a free one. -/
theorem stepsKeepTheRunTableLaw : Obligations.StepsKeepTheRunTableLaw := by
  intro s t hs h
  rw [runTableLaw_iff] at hs ⊢
  refine step_keeps_blocks (P := State.RunsApart)
    (fun same => .of_sublist fun m => sublist_of_eq (by rw [same.lane])) (fun move => move.runsApart)
    (fun rest => rest.runsApart) (fun s l => .of_sublist fun m => ?_) (fun s => .of_sublist fun m => ?_) ?_ h hs
  · rw [State.runNumbers_modLane]
    split
    · rename_i hm
      subst hm
      exact .refl _
    · exact .refl _
  · rw [State.lane_map]
    exact .refl _
  · have empty : ∀ l, (State.reset.lane l).runNumbers = [] := fun l => by
      rw [State.lane_reset]
      rfl
    refine ⟨fun l => ?_, fun l m _ n hl => ?_, fun l n hl => ?_⟩
    · rw [empty]
      exact List.nodup_nil
    · rw [empty] at hl
      contradiction
    · rw [empty] at hl
      contradiction

end Sys2Proof.Machine
end

section
/-! The checker (R115, R124 to R128): its counters and state, and the lane it listens to while it is in VERIFY or LOCKED. -/

namespace Sys2Proof.Machine

/-! ### What the moves of a lane make of the checker -/

theorem State.checkerSearch_state (s : State) (seq : SeqNum) (d : Word) :
    (s.checkerSearch seq d).checker = { s.checker with state := .search } := by
  unfold State.checkerSearch
  dsimp only
  split <;> rfl

/-- The checker after a change of a lane's state: back in SEARCH if the attached lane leaves RUNNING (R128). -/
theorem State.checker_changeState (s : State) (l : LaneId) (st : LaneState) :
    (s.changeState l st).checker =
      if (s.lane l).state.isRunning = true ∧ st.isRunning = false ∧ s.checker.lane = some l then
        { s.checker with state := .search }
      else s.checker := by
  by_cases leaves : (s.lane l).state.isRunning = true ∧ st.isRunning = false
  · rw [State.changeState_leaving s l st leaves.1 leaves.2, State.checker_leftBy, State.checker_wake]
    simp only [leaves.1, leaves.2, true_and]
    rfl
  · have stays : (s.lane l).state.isRunning = false ∨ st.isRunning = true := by
      rwa [not_and_or, Bool.not_eq_true, Bool.not_eq_false] at leaves
    rw [State.changeState_staying s l st stays, State.checker_wake, if_neg fun c => leaves ⟨c.1, c.2.1⟩]
    rfl

theorem State.checker_generatorReel (s : State) (l : LaneId) : (s.generatorReel l).checker = s.checker := by
  unfold State.generatorReel
  split <;> rfl

theorem State.checker_enterRunning (s : State) (l : LaneId) : (s.enterRunning l).checker = s.checker := by
  have changed : (s.changeState l (.running false)).checker = s.checker := by
    rw [State.checker_changeState, if_neg fun c => by simp [LaneState.isRunning] at c]
  unfold State.enterRunning
  dsimp only
  split
  · rw [State.checker_generatorReel]
    exact changed
  · exact changed

theorem State.checker_userLeft (s : State) (k : Option ProfileId) : (s.userLeft k).checker = s.checker := by
  unfold State.userLeft State.swapIfUnused
  split
  · split <;> rfl
  · rfl

theorem State.checker_humBegin (s : State) (l : LaneId) (p : Option ProfileId) (seq : SeqNum) :
    (s.humBegin l p seq).checker = s.checker := by
  unfold State.humBegin
  split
  · rename_i k
    have swapped : (if (s.profile k).swapPending then s.swap k (some l) seq else s).checker = s.checker := by
      split <;> rfl
    dsimp only
    generalize (if (s.profile k).swapPending then s.swap k (some l) seq else s) = s1 at swapped ⊢
    have turned :
        (if (s1.lane l).hum.profile ≠ some k ∨ (s1.lane l).hum.restart = true then
          s1.modHum l fun _ => { profile := some k, index := (s1.profile k).restartIndex, restart := false }
        else s1).checker = s.checker := by
      split <;> exact swapped
    split
    · rw [State.checker_userLeft]
      exact turned
    · exact turned
  · rw [State.checker_userLeft]
    rfl

/-! ### The counters and the state -/

theorem LaneMove.checkerLaw {l : LaneId} {s t : State} (h : LaneMove l s t) :
    CheckerLaw s.checker → CheckerLaw t.checker := by
  induction h with
  | refl | entry | newRun | gate | units | issue | push | headWaiting | phase => exact id
  | trans _ _ h k => exact fun c => k (h c)
  | humBegin s p seq => exact (s.humBegin_work l p seq).checkerLaw
  | changeState s st _ _ => exact (s.changeState_work l st).checkerLaw
  | becomeOff s => exact (s.becomeOff_work l).checkerLaw
  | enterRunning s _ => exact (s.enterRunning_work l).checkerLaw
  | checkerLoss s seq d => exact (s.checkerLoss_work l seq d).checkerLaw
  | checkerParcel s seq ws _ _ => exact (s.checkerParcel_work l seq ws).checkerLaw

theorem CommandEffect.checkerLaw {s t : State} (h : CommandEffect s t) (hs : CheckerLaw s.checker) :
    CheckerLaw t.checker := by
  cases h.shape with
  | work w => exact w.checkerLaw hs
  | configured =>
    rw [State.checker_wake]
    exact hs
  | rampWritten | intakeSet | intakeResumed | deliverySet | flushed => exact hs
  | partReset =>
    exact ⟨Nat.zero_le _, by simp [State.resetPart, Checker.resetPart], by simp [State.resetPart, Checker.resetPart], rfl⟩

theorem Effect.checkerLaw {s t : State} (h : Effect s t) (hs : CheckerLaw s.checker) : CheckerLaw t.checker := by
  cases h with
  | kept | intakeUp | intakeDown | paceEnded | deliveryUp | deliveryDown | started | batchExpired => exact hs
  | taken p rest r _ _ lawful => exact lawful.effect.checkerLaw (s := s.beginTake rest) hs
  | intakeArrived rx _ =>
    obtain same | ⟨l, same⟩ := s.intakeArrival_blocks rx
    · rw [same.checker]
      exact hs
    · rw [same.checker]
      exact hs
  | offered p rest _ =>
    rw [(State.actOn_blocks _ _).checker]
    exact (s.answer_work p).checkerLaw hs
  | returnArrived rx =>
    rw [(s.returnArrival_blocks rx).checker]
    exact hs
  | ended =>
    obtain ⟨l, u, v, before, moved, after⟩ := s.endTransmission_blocks
    rw [after.checker]
    refine moved.checkerLaw ?_
    rw [before.checker]
    exact hs
  | starved l _ => exact (s.expireLane_work l).checkerLaw hs
  | repairTaken => exact s.takeRepair_work.checkerLaw hs
  | repairCompleted => exact s.completeRepair_work.checkerLaw hs

theorem step_keeps_checkerLaw {s t : State} (h : step s = .next t) (hs : CheckerLaw s.checker) :
    CheckerLaw t.checker := by
  refine step_keeps (P := fun s => CheckerLaw s.checker) (fun s q hs => hs) (fun s t effect hs => ?_) h hs
  obtain _ | level | effect := effect
  · unfold State.tick
    split <;> exact hs
  · exact (by decide : CheckerLaw State.reset.checker)
  obtain level | _ | ⟨_, effect⟩ := effect
  · unfold State.readyChanged
    split <;> exact hs
  · exact hs
  · exact effect.checkerLaw hs

/-! ### The lane it listens to -/

/-- The lane is RUNNING on route CHECK. -/
def Lane.Checking (x : Lane) : Prop := x.state.isRunning = true ∧ x.config.route = .check

theorem checkerBusyLaw_iff (s : State) :
    CheckerBusyLaw s ↔ (s.checker.state ≠ .search → ∃ l, s.checker.lane = some l ∧ (s.lane l).Checking) := Iff.rfl

/-- A checker in SEARCH asks nothing of its lane. -/
theorem checkerBusyLaw_of_search {s : State} (h : s.checker.state = .search) : CheckerBusyLaw s :=
  fun busy => absurd h busy

/-- With the checker's state and lane as they were, the lane it listens to must go on RUNNING on route CHECK. -/
theorem CheckerBusyLaw.of_listening {s t : State} (hs : CheckerBusyLaw s) (state : t.checker.state = s.checker.state)
    (lane : t.checker.lane = s.checker.lane)
    (listening : ∀ m, s.checker.lane = some m → s.checker.state ≠ .search → (s.lane m).Checking → (t.lane m).Checking) :
    CheckerBusyLaw t := by
  intro busy
  rw [state] at busy
  obtain ⟨l, attached, checking⟩ := hs busy
  exact ⟨l, lane.trans attached, listening l attached busy checking⟩

theorem HumOnly.checking {s t : State} (h : HumOnly s t) {m : LaneId} (hm : (s.lane m).Checking) :
    (t.lane m).Checking := by
  obtain ⟨a, ha⟩ := h m
  rw [ha]
  exact hm

/-- A change of the state of a lane keeps the law: one that leaves RUNNING sends its checker back to SEARCH (R128). -/
theorem CheckerBusyLaw.changeState {s : State} (l : LaneId) (st : LaneState) (hs : CheckerBusyLaw s) :
    CheckerBusyLaw (s.changeState l st) := by
  have changed := s.checker_changeState l st
  split at changed
  · exact checkerBusyLaw_of_search (by rw [changed])
  · rename_i stays
    refine hs.of_listening (by rw [changed]) (by rw [changed]) fun m attached _ ⟨running, route⟩ => ?_
    obtain ⟨h, entry⟩ := s.lane_changeState l st m
    rw [entry]
    split
    · rename_i is
      subst is
      exact ⟨Bool.of_not_eq_false fun c => stays ⟨running, c, attached⟩, route⟩
    · exact ⟨running, route⟩

/-- A change of one lane's entry that leaves its state and record keeps the law. -/
theorem CheckerBusyLaw.modLane {s : State} (l : LaneId) (f : Lane → Lane)
    (h : (f (s.lane l)).state = (s.lane l).state ∧ (f (s.lane l)).config = (s.lane l).config)
    (hs : CheckerBusyLaw s) : CheckerBusyLaw (s.modLane l f) := by
  refine hs.of_listening rfl rfl fun m _ _ checking => ?_
  by_cases hm : m = l
  · subst hm
    rw [State.lane_modLane_same]
    unfold Lane.Checking
    rw [h.1, h.2]
    exact checking
  · rw [State.lane_modLane_ne s f hm]
    exact checking

theorem LaneMove.checkerBusyLaw {l : LaneId} {s t : State} (h : LaneMove l s t) :
    CheckerBusyLaw s → CheckerBusyLaw t := by
  induction h with
  | refl | units | issue | push | headWaiting => exact id
  | trans _ _ h k => exact fun c => k (h c)
  | entry s f inner => exact CheckerBusyLaw.modLane l f ⟨(inner _).state, (inner _).config⟩
  | newRun s r _ => exact CheckerBusyLaw.modLane l _ ⟨rfl, rfl⟩
  | gate s b => exact CheckerBusyLaw.modLane l _ ⟨rfl, rfl⟩
  | phase s f _ _ => exact CheckerBusyLaw.modLane l _ ⟨rfl, rfl⟩
  | humBegin s p seq =>
    exact fun hs => hs.of_listening (by rw [s.checker_humBegin]) (by rw [s.checker_humBegin]) fun m _ _ checking =>
      (HumOnly.humBegin s l p seq).checking checking
  | changeState s st _ _ => exact CheckerBusyLaw.changeState l st
  | becomeOff s => exact fun hs => (hs.changeState l .off).modLane l Lane.clearedOff ⟨rfl, rfl⟩
  | enterRunning s _ =>
    refine fun hs => hs.of_listening (by rw [s.checker_enterRunning]) (by rw [s.checker_enterRunning])
      fun m _ _ checking => ?_
    rw [State.lane_enterRunning]
    split
    · rename_i hm
      subst hm
      exact ⟨rfl, checking.2⟩
    · exact checking
  | checkerLoss s seq d =>
    unfold State.checkerLoss
    split
    · exact fun _ => checkerBusyLaw_of_search (by rw [s.checkerSearch_state])
    · exact id
  | checkerParcel s seq ws running check =>
    have only := s.checkerParcel_only l seq ws
    by_cases attached : s.checker.lane = some l
    · exact fun _ _ => ⟨l, only.2.trans attached, by rw [only.lane]; exact ⟨running, check⟩⟩
    · unfold State.checkerParcel
      rw [if_neg attached]
      exact id

theorem CommandRest.checkerBusyLaw {s t : State} (h : CommandRest s t) (hs : CheckerBusyLaw s) : CheckerBusyLaw t := by
  cases h with
  | configured l c _ fixed =>
    refine hs.of_listening (by rw [State.checker_wake]; rfl) (by rw [State.checker_wake]; rfl)
      fun m _ _ ⟨running, check⟩ => ?_
    rw [State.lane_configured]
    split
    · rename_i is
      subst is
      refine ⟨running, ?_⟩
      obtain off | fixed := fixed
      · rw [off] at running
        contradiction
      · simp only [LaneConfig.changesFixed, Bool.or_eq_false_iff, decide_eq_false_iff_not, not_not,
          Bool.and_eq_false_iff, Bool.not_eq_false', Bool.and_eq_true] at fixed
        obtain ⟨_, route | ⟨_, holds⟩⟩ := fixed
        · exact route.trans check
        · rw [check] at holds
          contradiction
    · exact ⟨running, check⟩
  | armed l off _ =>
    have only := State.armLane_of_off off
    refine hs.of_listening (by rw [only]) (by rw [only]) fun m _ _ ⟨running, check⟩ => ?_
    rw [State.lane_armLane off]
    split
    · rename_i is
      subst is
      rw [off] at running
      contradiction
    · exact ⟨running, check⟩
  | bankWritten | humSet | humCommitted | rampWritten => exact hs
  | humSwapped k _ =>
    exact hs.of_listening rfl rfl fun m _ _ checking =>
      ((HumOnly.of_lanes fun _ => rfl).trans (HumOnly.swap _ _ _ _)).checking checking
  | resynced k =>
    refine hs.of_listening rfl rfl fun m _ _ checking => ?_
    rw [State.lane_map]
    obtain ⟨a, ha⟩ := (s.lane m).markRestart_humOnly k
    rw [ha]
    exact checking
  | checkerSet c seq d => exact checkerBusyLaw_of_search (by rw [State.checkerSearch_state])
  | checkerLatched => exact hs
  | partReset => exact checkerBusyLaw_of_search rfl

/-- Settles O51: the counters keep their law at every word, and whatever takes the attached lane out of RUNNING sends the
checker back to SEARCH. -/
theorem stepsKeepTheCheckerLaw : Obligations.StepsKeepTheCheckerLaw := by
  refine fun s t h => ⟨step_keeps_checkerLaw h, fun hs => ?_⟩
  refine step_keeps_blocks (P := CheckerBusyLaw) (fun same hs => ?_) (fun move => move.checkerBusyLaw)
    (fun rest => rest.checkerBusyLaw) (fun s l => CheckerBusyLaw.modLane l _ ⟨rfl, rfl⟩) (fun s hs => ?_)
    (checkerBusyLaw_of_search rfl) h hs
  · exact hs.of_listening (by rw [same.checker]) (by rw [same.checker]) fun m _ _ checking => by
      rw [same.lane]
      exact checking
  · refine hs.of_listening rfl rfl fun m _ _ checking => ?_
    rw [State.lane_map]
    exact checking

end Sys2Proof.Machine
end

section
/-! The hum profiles (R30, R31, R35 to R45): their banks, the phase indices inside them, and the pending swaps. A lane that
stops using a profile leaves a swap pending without a user only until its own event has made the test of R38. -/

namespace Sys2Proof.Machine

/-! ### Banks and phase indices -/

theorem State.profile_swap (s : State) (k : ProfileId) (a : Option LaneId) (q : SeqNum) (j : ProfileId) :
    (s.swap k a q).profile j = if j = k then (s.profile k).swapped else s.profile j := by
  unfold State.swap
  dsimp only
  rw [State.profile_issue]
  by_cases is : j = k
  · subst is
    rw [if_pos rfl]
    exact State.profile_modProfile_same s j _
  · rw [if_neg is]
    exact State.profile_modProfile_ne s _ is

/-- The law looks at the profiles, and at the hum states of the lanes that have a phase profile. -/
theorem HumLaw.of_same {s t : State} (hs : HumLaw s) (profile : ∀ k, t.profile k = s.profile k)
    (hum : ∀ m, (t.lane m).hum.profile = none
      ∨ (t.lane m).hum.profile = (s.lane m).hum.profile ∧ (t.lane m).hum.index = (s.lane m).hum.index) : HumLaw t := by
  refine ⟨fun k => by rw [profile]; exact hs.1 k, fun m k turned => ?_⟩
  rw [profile]
  obtain none | ⟨same, index⟩ := hum m
  · rw [none] at turned
    contradiction
  · rw [index]
    exact hs.2 m k (same.symm.trans turned)

/-- The hum state of a lane may become one that is inside its SERVING bank. -/
theorem HumLaw.setPhase {s : State} {l : LaneId} {f : LaneHum → LaneHum} (hs : HumLaw s)
    (index : ∀ k, (f (s.lane l).hum).profile = some k → (f (s.lane l).hum).index < (s.profile k).servingBank.length) :
    HumLaw (s.modHum l f) := by
  refine ⟨hs.1, fun m k turned => ?_⟩
  by_cases hm : m = l
  · subst hm
    rw [State.lane_modHum_same] at turned ⊢
    exact index k turned
  · rw [State.lane_modHum_ne s f hm] at turned ⊢
    exact hs.2 m k turned

/-- A swap reduces the phase indices to the bank that begins to serve (R35). -/
theorem HumLaw.swap {s : State} (hs : HumLaw s) (k : ProfileId) (a : Option LaneId) (q : SeqNum) :
    HumLaw (s.swap k a q) := by
  refine ⟨fun j => ?_, fun m j turned => ?_⟩
  · rw [State.profile_swap]
    split
    · exact hs.1 k
    · exact hs.1 j
  · have full : 16 ≤ (s.profile k).swapped.servingBank.length :=
      (HumBank.length_of_wf (hs.bank k (s.profile k).serving.other)).1
    rw [State.lane_swap] at turned ⊢
    rw [Lane.phaseProfile_reducePhase] at turned
    rw [State.profile_swap]
    unfold Lane.reducePhase
    by_cases is : j = k
    · subst is
      rw [if_pos rfl, if_pos turned]
      exact Nat.mod_lt _ (by omega)
    · rw [if_neg is, if_neg fun c => is (Option.some.inj (turned.symm.trans c))]
      exact hs.2 m j turned

theorem HumLaw.userLeft {s : State} (hs : HumLaw s) (k : Option ProfileId) : HumLaw (s.userLeft k) := by
  unfold State.userLeft State.swapIfUnused
  split
  · split
    · exact hs.swap _ _ _
    · exact hs
  · exact hs

theorem HumLaw.humBegin {s : State} (hs : HumLaw s) (l : LaneId) (p : Option ProfileId) (seq : SeqNum) :
    HumLaw (s.humBegin l p seq) := by
  unfold State.humBegin
  split
  · rename_i k
    have swapped : HumLaw (if (s.profile k).swapPending then s.swap k (some l) seq else s) := by
      split
      · exact hs.swap _ _ _
      · exact hs
    dsimp only
    generalize (if (s.profile k).swapPending then s.swap k (some l) seq else s) = s1 at swapped ⊢
    have turned : HumLaw
        (if (s1.lane l).hum.profile ≠ some k ∨ (s1.lane l).hum.restart = true then
          s1.modHum l fun _ => { profile := some k, index := (s1.profile k).restartIndex, restart := false }
        else s1) := by
      split
      · refine swapped.setPhase fun j is => ?_
        obtain rfl : k = j := Option.some.inj is
        exact swapped.restartIndex k
      · exact swapped
    split
    · exact turned.userLeft _
    · exact turned
  · exact HumLaw.userLeft (hs.setPhase fun j is => absurd is (by simp)) _

theorem State.checkerLoss_laneProfile (s : State) (l : LaneId) (seq : SeqNum) (d : Word) (m : LaneId) (k : ProfileId) :
    (s.checkerLoss l seq d).lane m = s.lane m ∧ (s.checkerLoss l seq d).profile k = s.profile k := by
  have only := s.checkerLoss_only l seq d
  exact ⟨only.lane m, by unfold State.profile; rw [only.profiles]⟩

theorem HumLaw.of_checkerOnly {s t : State} (only : CheckerOnly s t) (hs : HumLaw s) : HumLaw t :=
  hs.of_same (fun k => by unfold State.profile; rw [only.profiles]) fun m => .inr (by rw [only.lane]; exact ⟨rfl, rfl⟩)

/-- A change of one lane's entry that leaves its hum state, or clears it. -/
theorem HumLaw.modLane {s : State} {l : LaneId} {f : Lane → Lane} (hs : HumLaw s)
    (hum : (f (s.lane l)).hum = (s.lane l).hum ∨ (f (s.lane l)).hum.profile = none) : HumLaw (s.modLane l f) := by
  refine hs.of_same (fun _ => rfl) fun m => ?_
  by_cases hm : m = l
  · subst hm
    rw [State.lane_modLane_same]
    obtain same | none := hum
    · rw [same]
      exact .inr ⟨rfl, rfl⟩
    · exact .inl none
  · rw [State.lane_modLane_ne s f hm]
    exact .inr ⟨rfl, rfl⟩

theorem HumLaw.wake {s : State} (hs : HumLaw s) (l : LaneId) : HumLaw (s.wake l) :=
  hs.of_same (fun k => by unfold State.profile; rw [State.profiles_wake]) fun m => .inr (by rw [State.lane_wake]; exact ⟨rfl, rfl⟩)

theorem HumLaw.changeState {s : State} (hs : HumLaw s) (l : LaneId) (st : LaneState) : HumLaw (s.changeState l st) := by
  have entered : HumLaw ((s.modLane l fun ln => ln.inState st).wake l) := (hs.modLane (.inl rfl)).wake l
  unfold State.changeState
  dsimp only
  split
  · exact (entered.userLeft _).of_checkerOnly (State.checkerLoss_only _ l 0 1)
  · exact entered

/-! ### Pending swaps -/

theorem State.hasUser_iff (s : State) (k : ProfileId) : s.hasUser k = true ↔ ∃ m, (s.lane m).uses k = true := by
  rw [← Bool.not_eq_false, State.hasUser_eq_false]
  simp

/-- Every pending swap has a user but perhaps that of the profile a lane has just stopped using (R38). -/
def SwapLawBut (old : Option ProfileId) (s : State) : Prop :=
  ∀ k, some k ≠ old → (s.profile k).swapPending = true → ∃ m, (s.lane m).uses k = true

theorem swapLaw_iff (s : State) : SwapLaw s ↔ ∀ k, (s.profile k).swapPending = true → ∃ m, (s.lane m).uses k = true := by
  unfold SwapLaw
  simp only [State.hasUser_iff]

/-- The law is kept where the swaps pending are among those before, and no user goes. -/
theorem SwapLaw.of_users {s t : State} (hs : SwapLaw s)
    (pending : ∀ k, (t.profile k).swapPending = true → (s.profile k).swapPending = true)
    (users : ∀ m k, (s.lane m).uses k = true → (t.lane m).uses k = true) : SwapLaw t := by
  rw [swapLaw_iff] at hs ⊢
  intro k due
  obtain ⟨m, uses⟩ := hs k (pending k due)
  exact ⟨m, users m k uses⟩

theorem Lane.uses_reducePhase (x : Lane) (k j : ProfileId) (len : Nat) : (x.reducePhase k len).uses j = x.uses j := by
  unfold Lane.reducePhase
  split <;> rfl

theorem State.uses_swap (s : State) (k : ProfileId) (a : Option LaneId) (q : SeqNum) (m : LaneId) (j : ProfileId) :
    ((s.swap k a q).lane m).uses j = (s.lane m).uses j := by
  rw [State.lane_swap, Lane.uses_reducePhase]

theorem State.pending_swap {s : State} {k : ProfileId} {a : Option LaneId} {q : SeqNum} {j : ProfileId}
    (h : ((s.swap k a q).profile j).swapPending = true) : j ≠ k ∧ (s.profile j).swapPending = true := by
  rw [State.profile_swap] at h
  split at h
  · contradiction
  · rename_i ne
    exact ⟨ne, h⟩

theorem SwapLaw.swap {s : State} (hs : SwapLaw s) (k : ProfileId) (a : Option LaneId) (q : SeqNum) :
    SwapLaw (s.swap k a q) :=
  hs.of_users (fun _ h => (State.pending_swap h).2) fun m j uses => (s.uses_swap k a q m j).trans uses

/-- The test of R38 restores the law for the profile left. -/
theorem SwapLawBut.userLeft {s : State} {old : Option ProfileId} (hs : SwapLawBut old s) : SwapLaw (s.userLeft old) := by
  rw [swapLaw_iff]
  intro k due
  unfold State.userLeft State.swapIfUnused at due ⊢
  split at due
  · rename_i j
    split at due
    · rename_i test
      obtain ⟨ne, due⟩ := State.pending_swap due
      obtain ⟨m, uses⟩ := hs k (fun c => ne (Option.some.inj c)) due
      rw [if_pos test]
      exact ⟨m, (State.uses_swap _ _ _ _ _ _).trans uses⟩
    · rename_i test
      rw [if_neg test]
      by_cases is : k = j
      · subst is
        simp only [due, Bool.true_and, Bool.not_eq_true', Bool.not_eq_false] at test
        exact (s.hasUser_iff k).1 test
      · exact hs k (fun c => is (Option.some.inj c)) due
  · exact hs k (by simp) due

/-- A change of one lane's entry after which it uses all but the profile `old` as before. -/
theorem SwapLaw.modLaneBut {s : State} {l : LaneId} {f : Lane → Lane} {old : Option ProfileId} (hs : SwapLaw s)
    (users : ∀ k, some k ≠ old → (s.lane l).uses k = true → (f (s.lane l)).uses k = true) :
    SwapLawBut old (s.modLane l f) := by
  rw [swapLaw_iff] at hs
  intro k other due
  obtain ⟨m, uses⟩ := hs k due
  refine ⟨m, ?_⟩
  by_cases hm : m = l
  · subst hm
    rw [State.lane_modLane_same]
    exact users k other uses
  · rw [State.lane_modLane_ne s f hm]
    exact uses

/-- A change of one lane's entry under which it goes on using what it used. -/
theorem SwapLaw.modLane {s : State} {l : LaneId} {f : Lane → Lane} (hs : SwapLaw s)
    (users : ∀ k, (s.lane l).uses k = true → (f (s.lane l)).uses k = true) : SwapLaw (s.modLane l f) := by
  rw [swapLaw_iff]
  exact fun k due => SwapLaw.modLaneBut (old := none) hs (fun k _ => users k) k (by simp) due

/-- A lane uses no profile but its phase profile. -/
theorem Lane.uses_profile {x : Lane} {k : ProfileId} (h : x.uses k = true) : x.hum.profile = some k := by
  simp only [Lane.uses, Bool.and_eq_true, decide_eq_true_eq] at h
  exact h.2

theorem SwapLaw.of_checkerOnly {s t : State} (only : CheckerOnly s t) (hs : SwapLaw s) : SwapLaw t :=
  hs.of_users (fun k => by unfold State.profile; rw [only.profiles]; exact id) fun m k => by rw [only.lane]; exact id

theorem SwapLawBut.wake {s : State} {old : Option ProfileId} (hs : SwapLawBut old s) (l : LaneId) :
    SwapLawBut old (s.wake l) := by
  unfold SwapLawBut State.profile
  simp only [State.lane_wake, State.profiles_wake]
  exact hs

theorem SwapLaw.wake {s : State} (hs : SwapLaw s) (l : LaneId) : SwapLaw (s.wake l) :=
  hs.of_users (fun k => by unfold State.profile; rw [State.profiles_wake]; exact id) fun m k => by rw [State.lane_wake]; exact id

/-- A lane that leaves RUNNING makes the test of R38 on its phase profile. -/
theorem SwapLaw.changeState {s : State} (hs : SwapLaw s) (l : LaneId) (st : LaneState) : SwapLaw (s.changeState l st) := by
  by_cases leaves : (s.lane l).state.isRunning = true ∧ st.isRunning = false
  · rw [State.changeState_leaving s l st leaves.1 leaves.2, ← State.leftBy_eq]
    refine SwapLaw.of_checkerOnly (State.checkerLoss_only _ l 0 1) (SwapLawBut.userLeft (SwapLawBut.wake ?_ l))
    exact hs.modLaneBut fun k other uses => absurd (Lane.uses_profile uses).symm other
  · have stays : (s.lane l).state.isRunning = false ∨ st.isRunning = true := by
      rwa [not_and_or, Bool.not_eq_true, Bool.not_eq_false] at leaves
    rw [State.changeState_staying s l st stays]
    refine SwapLaw.wake (hs.modLane fun k uses => ?_) l
    simp only [Lane.uses, Bool.and_eq_true] at uses ⊢
    obtain ⟨running, profile⟩ := uses
    obtain idle | stays := stays
    · rw [idle] at running
      contradiction
    · exact ⟨stays, profile⟩

theorem Lane.uses_of_same {x y : Lane} (state : y.state = x.state) (profile : y.hum.profile = x.hum.profile)
    (k : ProfileId) : y.uses k = x.uses k := by
  unfold Lane.uses
  rw [state, profile]

/-- A parcel's cancellation takes a pending swap of its profile, and makes the test of R38 on the profile the lane turns
away from (R37 to R40). -/
theorem SwapLaw.humBegin {s : State} (hs : SwapLaw s) (l : LaneId) (p : Option ProfileId) (seq : SeqNum) :
    SwapLaw (s.humBegin l p seq) := by
  have turning : ∀ {u : State} (f : LaneHum → LaneHum), SwapLaw u →
      SwapLawBut (u.lane l).hum.profile (u.modHum l f) := fun f hu =>
    hu.modLaneBut fun k other uses => absurd (Lane.uses_profile uses).symm other
  unfold State.humBegin
  split
  · rename_i k
    have swapped : SwapLaw (if (s.profile k).swapPending then s.swap k (some l) seq else s) := by
      split
      · exact hs.swap _ _ _
      · exact hs
    dsimp only
    generalize (if (s.profile k).swapPending then s.swap k (some l) seq else s) = s1 at swapped ⊢
    by_cases turns : (s1.lane l).hum.profile = some k
    · rw [if_neg (not_not.2 turns)]
      split
      · refine swapped.modLane fun j uses => ?_
        simp only [Lane.uses, turns] at uses ⊢
        exact uses
      · exact swapped
    · rw [if_pos turns, if_pos (.inl turns)]
      exact (turning _ swapped).userLeft
  · exact (turning _ hs).userLeft

/-! ### The laws together -/

theorem State.profiles_enterRunning (s : State) (l : LaneId) : (s.enterRunning l).profiles = s.profiles := by
  have changed : (s.changeState l (.running false)).profiles = s.profiles := by
    rw [State.changeState_staying s l _ (.inr rfl), State.profiles_wake]
    rfl
  unfold State.enterRunning
  dsimp only
  split
  · unfold State.generatorReel
    split <;> exact changed
  · exact changed

/-- A move of a lane keeps the banks and phase indices. -/
theorem LaneMove.humLaw {l : LaneId} {s t : State} (h : LaneMove l s t) : HumLaw s → HumLaw t := by
  induction h with
  | refl | units | issue | push | headWaiting => exact id
  | trans _ _ h k => exact fun c => k (h c)
  | entry s f inner => exact fun hs => hs.modLane (.inl (inner _).hum)
  | newRun | gate => exact fun hs => hs.modLane (.inl rfl)
  | phase s f _ keeps => exact keeps
  | humBegin s p seq => exact fun hs => hs.humBegin l p seq
  | changeState s st _ _ => exact fun hs => hs.changeState l st
  | becomeOff s => exact fun hs => (hs.changeState l .off).modLane (.inr rfl)
  | enterRunning s _ =>
    refine fun hs => hs.of_same (fun k => ?_) fun m => .inr ?_
    · unfold State.profile
      rw [State.profiles_enterRunning]
    · rw [State.lane_enterRunning]
      split
      · rename_i hm
        subst hm
        exact ⟨rfl, rfl⟩
      · exact ⟨rfl, rfl⟩
  | checkerLoss s seq d => exact HumLaw.of_checkerOnly (s.checkerLoss_only l seq d)
  | checkerParcel s seq ws _ _ => exact HumLaw.of_checkerOnly (s.checkerParcel_only l seq ws)

/-- A move of a lane keeps every pending swap with a user. -/
theorem LaneMove.swapLaw {l : LaneId} {s t : State} (h : LaneMove l s t) : SwapLaw s → SwapLaw t := by
  induction h with
  | refl | units | issue | push | headWaiting => exact id
  | trans _ _ h k => exact fun c => k (h c)
  | entry s f inner =>
    refine fun hs => hs.modLane fun k uses => ?_
    rw [Lane.uses_of_same (inner _).state (by rw [(inner _).hum])]
    exact uses
  | newRun | gate => exact fun hs => hs.modLane fun _ uses => uses
  | phase s f profile _ =>
    refine fun hs => hs.modLane fun k uses => ?_
    simp only [Lane.uses, profile] at uses ⊢
    exact uses
  | humBegin s p seq => exact fun hs => hs.humBegin l p seq
  | changeState s st _ _ => exact fun hs => hs.changeState l st
  | becomeOff s =>
    refine fun hs => (hs.changeState l .off).modLane fun k uses => ?_
    obtain ⟨h, changed⟩ := s.lane_changeState l .off l
    rw [changed, if_pos rfl] at uses
    contradiction
  | enterRunning s _ =>
    refine fun hs => hs.of_users (fun k => ?_) fun m k uses => ?_
    · unfold State.profile
      rw [State.profiles_enterRunning]
      exact id
    · rw [State.lane_enterRunning]
      split
      · rename_i hm
        subst hm
        simpa [Lane.uses, Lane.started, LaneState.isRunning] using Lane.uses_profile uses
      · exact uses
  | checkerLoss s seq d => exact SwapLaw.of_checkerOnly (s.checkerLoss_only l seq d)
  | checkerParcel s seq ws _ _ => exact SwapLaw.of_checkerOnly (s.checkerParcel_only l seq ws)

/-- A change of one profile that keeps its banks in form, its start phase in range and the length of its SERVING bank. -/
theorem HumLaw.modProfile {s : State} {k : ProfileId} {f : HumProfile → HumProfile} (hs : HumLaw s)
    (form : (f (s.profile k)).bankA.wf = true ∧ (f (s.profile k)).bankB.wf = true ∧ (f (s.profile k)).startPhase < 1024)
    (length : (f (s.profile k)).servingBank.length = (s.profile k).servingBank.length) : HumLaw (s.modProfile k f) := by
  refine ⟨fun j => ?_, fun m j turned => ?_⟩
  · by_cases is : j = k
    · subst is
      rw [State.profile_modProfile_same]
      exact form
    · rw [State.profile_modProfile_ne s f is]
      exact hs.1 j
  · have inside := hs.2 m j turned
    by_cases is : j = k
    · subst is
      rw [State.profile_modProfile_same, length]
      exact inside
    · rw [State.profile_modProfile_ne s f is]
      exact inside

theorem SwapLaw.modProfile {s : State} {k : ProfileId} {f : HumProfile → HumProfile} (hs : SwapLaw s)
    (pending : (f (s.profile k)).swapPending = true → ∃ m, (s.lane m).uses k = true) : SwapLaw (s.modProfile k f) := by
  rw [swapLaw_iff] at hs ⊢
  intro j due
  by_cases is : j = k
  · subst is
    rw [State.profile_modProfile_same] at due
    exact pending due
  · rw [State.profile_modProfile_ne s f is] at due
    exact hs j due

/-- A well-formed bank in the place of one that does not serve keeps the profile in form, and what serves. -/
theorem HumProfile.setBank_form {p : HumProfile} {which : BankId} {b : HumBank} (other : which ≠ p.serving)
    (form : p.bankA.wf = true ∧ p.bankB.wf = true) (wf : b.wf = true) :
    ((p.setBank which b).bankA.wf = true ∧ (p.setBank which b).bankB.wf = true)
      ∧ (p.setBank which b).servingBank = p.servingBank ∧ (p.setBank which b).swapPending = p.swapPending
      ∧ (p.setBank which b).startPhase = p.startPhase := by
  unfold HumProfile.servingBank
  cases which with
  | a =>
    refine ⟨⟨wf, form.2⟩, ?_, rfl, rfl⟩
    cases serves : p.serving with
    | a => exact absurd serves.symm other
    | b => simp only [HumProfile.setBank, serves, HumProfile.bank]
  | b =>
    refine ⟨⟨form.1, wf⟩, ?_, rfl, rfl⟩
    cases serves : p.serving with
    | a => simp only [HumProfile.setBank, serves, HumProfile.bank]
    | b => exact absurd serves.symm other

theorem HumProfile.loading_other {p : HumProfile} {which : BankId} (h : p.ownership which = .loading) :
    which ≠ p.serving := by
  intro c
  unfold HumProfile.ownership at h
  rw [if_pos c] at h
  contradiction

theorem BankId.other_ne (which : BankId) : which.other ≠ which := by cases which <;> simp [BankId.other]

/-- A lane with a phase profile pending a restart, or with its record or state at rest changed, and a profile set, keep
the laws of the hum profiles. -/
theorem CommandRest.humLaws {s t : State} (h : CommandRest s t) (hum : HumLaw s) (swap : SwapLaw s) :
    HumLaw t ∧ SwapLaw t := by
  cases h with
  | configured l c _ _ => exact ⟨(hum.modLane (.inl rfl)).wake l, (swap.modLane fun _ uses => uses).wake l⟩
  | armed l off _ =>
    exact ⟨(hum.changeState l .armed).modLane (.inl rfl), (swap.changeState l .armed).modLane fun _ uses => uses⟩
  | bankWritten k which i vs run loading =>
    have wf := HumBank.wf_write i vs (hum.bank k which) run
    obtain ⟨form, serving, pending, start⟩ := HumProfile.setBank_form (HumProfile.loading_other loading)
      ⟨(hum.1 k).1, (hum.1 k).2.1⟩ wf
    refine ⟨hum.modProfile ⟨form.1, form.2, ?_⟩ (by rw [serving]), swap.modProfile ?_⟩
    · rw [start]
      exact (hum.1 k).2.2
    · rw [pending]
      exact (swapLaw_iff s).1 swap k
  | humSet k n f r length _ phase =>
    obtain ⟨bankA, bankB, _⟩ := hum.1 k
    by_cases zero : n = 0
    · simp only [if_pos zero]
      exact ⟨hum.modProfile ⟨bankA, bankB, Nat.lt_succ_of_le phase⟩ rfl, swap.modProfile ((swapLaw_iff s).1 swap k)⟩
    · simp only [if_neg zero]
      have wf : HumBank.wf { (s.profile k).bank (s.profile k).serving.other with length := n } = true := by
        have old := hum.bank k (s.profile k).serving.other
        obtain ⟨low, high⟩ := length zero
        simp only [HumBank.wf, Bool.and_eq_true, decide_eq_true_eq, Config.bankEntries] at old ⊢
        exact ⟨⟨old.1.1, low⟩, decide_eq_true high⟩
      obtain ⟨form, serving, pending, _⟩ := HumProfile.setBank_form (BankId.other_ne _) ⟨bankA, bankB⟩ wf
      refine ⟨hum.modProfile ⟨form.1, form.2, Nat.lt_succ_of_le phase⟩ (congrArg HumBank.length serving), swap.modProfile ?_⟩
      exact fun due => (swapLaw_iff s).1 swap k (pending.symm.trans due)
  | humCommitted k user =>
    exact ⟨hum.modProfile (hum.1 k) rfl, swap.modProfile fun _ => (s.hasUser_iff k).1 user⟩
  | humSwapped k _ =>
    refine ⟨HumLaw.swap (hum.modProfile (hum.1 k) rfl) _ _ _, ?_⟩
    rw [swapLaw_iff] at swap ⊢
    intro j due
    obtain ⟨ne, due⟩ := State.pending_swap due
    rw [State.profile_modProfile_ne s _ ne] at due
    obtain ⟨m, uses⟩ := swap j due
    exact ⟨m, (State.uses_swap _ _ _ _ _ _).trans uses⟩
  | resynced k =>
    have marked : ∀ m, (({ s with lanes := s.lanes.map fun ln => ln.markRestart k } : State).lane m).hum.profile
          = (s.lane m).hum.profile
        ∧ (({ s with lanes := s.lanes.map fun ln => ln.markRestart k } : State).lane m).hum.index = (s.lane m).hum.index
        ∧ (({ s with lanes := s.lanes.map fun ln => ln.markRestart k } : State).lane m).state = (s.lane m).state :=
      fun m => by
        rw [State.lane_map]
        unfold Lane.markRestart
        split <;> exact ⟨rfl, rfl, rfl⟩
    refine ⟨hum.of_same (fun _ => rfl) fun m => .inr ⟨(marked m).1, (marked m).2.1⟩,
      swap.of_users (fun _ => id) fun m j uses => ?_⟩
    rw [Lane.uses_of_same (marked m).2.2 (marked m).1]
    exact uses
  | rampWritten => exact ⟨hum, swap⟩
  | checkerSet c seq d =>
    have only := State.checkerSearch_only { s with checker := c } seq d
    exact ⟨HumLaw.of_checkerOnly only hum, SwapLaw.of_checkerOnly only swap⟩
  | checkerLatched => exact ⟨hum, swap⟩
  | partReset =>
    have profile : ∀ k, s.resetPart.profile k = (s.profile k).cancelSwap := fun k => by
      simp [State.resetPart, State.profile]
    refine ⟨⟨fun k => ?_, fun m k turned => ?_⟩, fun k due => ?_⟩
    · rw [profile]
      exact hum.1 k
    · rw [State.lane_resetPart] at turned
      contradiction
    · rw [profile] at due
      contradiction

/-- Settles O52: a swap reduces the phase indices to the new SERVING bank, and an event in which a lane stops using a
profile ends with the test of R38. -/
theorem stepsKeepTheHumLaws : Obligations.StepsKeepTheHumLaws := by
  intro s t hum swap h
  refine step_keeps_blocks (P := fun s => HumLaw s ∧ SwapLaw s) (fun same ⟨hum, swap⟩ => ?_)
    (fun move ⟨hum, swap⟩ => ⟨move.humLaw hum, move.swapLaw swap⟩) (fun rest ⟨hum, swap⟩ => rest.humLaws hum swap)
    (fun s l ⟨hum, swap⟩ => ⟨hum.modLane (.inl rfl), swap.modLane fun _ uses => uses⟩)
    (fun s ⟨hum, swap⟩ => ⟨hum.of_same (fun _ => rfl) fun m => .inr ?_, swap.of_users (fun _ => id) fun m k => ?_⟩) ?_ h
    ⟨hum, swap⟩
  · exact ⟨hum.of_same same.profile fun m => .inr (by rw [same.lane]; exact ⟨rfl, rfl⟩),
      swap.of_users (fun k => by rw [same.profile]; exact id) fun m k => by rw [same.lane]; exact id⟩
  · rw [State.lane_map]
    exact ⟨rfl, rfl⟩
  · rw [State.lane_map]
    exact id
  · have profile : ∀ k, State.reset.profile k = HumProfile.powerOn := fun k => by simp [State.profile, State.reset]
    refine ⟨⟨fun k => ?_, fun m k turned => ?_⟩, fun k due => ?_⟩
    · rw [profile]
      exact (by decide : HumProfile.powerOn.bankA.wf = true ∧ HumProfile.powerOn.bankB.wf = true
        ∧ HumProfile.powerOn.startPhase < 1024)
    · rw [State.lane_reset] at turned
      contradiction
    · rw [profile] at due
      contradiction

end Sys2Proof.Machine
end

section
/-! The step, the tick and the RESET line (R25, R157, R171; logs 2, 4, 6, 16), the refusal of an unknown command (R167),
the link, pace and ready events (R142, R144, R153, R160), and the laws at reset. -/

namespace Sys2Proof.Machine

/-! ### The step and the tick -/

/-- After one tick a counting timer has run out that had at most one millisecond left (R25, R157). -/
theorem Timer.expired_tick (t : Timer) : t.tick.expired = true ↔ t.counting = true ∧ t.remaining ≤ 1 := by
  unfold Timer.expired Timer.tick
  cases counts : t.counting with
  | false => simp [counts]
  | true =>
    simp only [if_true, Bool.true_and, decide_eq_true_eq, true_and]
    omega

theorem Timer.tick_eq (t : Timer) :
    t.tick = { remaining := if t.counting = true then t.remaining - 1 else t.remaining, counting := t.counting } := by
  unfold Timer.tick
  split <;> rfl

/-- What a tick puts in the queue: the expiry of every timer it has brought to 0. -/
theorem State.mem_expiries (s : State) (c : Instr) :
    c ∈ s.expiries ↔
      (∃ l : LaneId, c = .starvationExpiry l ∧ (s.lane l).timer.expired = true)
        ∨ (c = .batchExpiry ∧ s.delivery.timer.expired = true) := by
  have batch : (c ∈ if s.delivery.timer.expired then [Instr.batchExpiry] else [])
      ↔ c = .batchExpiry ∧ s.delivery.timer.expired = true := by
    split
    · rename_i due
      simp [due]
    · rename_i none
      simp [none]
  unfold State.expiries
  rw [List.mem_append, batch]
  refine or_congr_left ⟨fun h => ?_, fun ⟨l, is, due⟩ => ?_⟩
  · obtain ⟨l, hl, rfl⟩ := List.mem_map.1 h
    exact ⟨l, rfl, (List.mem_filter.1 hl).2⟩
  · exact List.mem_map.2 ⟨l, List.mem_filter.2 ⟨List.mem_finRange l, due⟩, is.symm⟩

/-- Settles O1: both branches of the step are its definition, and a tick is written out timer by timer. -/
theorem stepTakesTheFrontCommand : Obligations.StepTakesTheFrontCommand := by
  refine ⟨fun c rest s front => ?_, fun s empty => ⟨s.tick, ?_, ?_, ?_⟩⟩
  · unfold step
    rw [front]
  · unfold step
    rw [empty]
  · intro held
    unfold State.tick
    rw [if_pos held]
  · intro running
    let u : State :=
      { s with lanes := s.lanes.map Lane.tick, delivery := { s.delivery with timer := s.delivery.timer.tick } }
    have ticked : s.tick = { u with pending := s.pending ++ u.expiries } := by
      unfold State.tick
      rw [if_neg (by rw [running]; simp)]
    have lanes : ∀ l, u.lane l = (s.lane l).tick := fun l => by simp [u, State.lane]
    rw [ticked]
    refine ⟨rfl, fun l => ?_, s.delivery.timer.tick_eq, fun c => ?_⟩
    · refine (lanes l).trans ?_
      unfold Lane.tick
      rw [Timer.tick_eq]
    · change c ∈ s.pending ++ u.expiries ↔ _
      rw [empty, List.nil_append, State.mem_expiries]
      refine or_congr (exists_congr fun l => and_congr_right fun _ => ?_) (and_congr_right fun _ => ?_)
      · rw [lanes]
        exact Timer.expired_tick _
      · exact Timer.expired_tick _

/-! ### The RESET line -/

/-- While RESET is asserted no command or event of the part's own changes anything (R171). -/
theorem exec_held {s : State} (held : s.resetLine = true) (c : Instr) (assert : c ≠ .resetAssert)
    (start : c ≠ .powerOnStart) (ready : ∀ level, c ≠ .deliveryReadyChange level) : exec c s = .next s := by
  cases c with
  | resetAssert => exact absurd rfl assert
  | powerOnStart => exact absurd rfl start
  | deliveryReadyChange level => exact absurd rfl (ready level)
  | _ => exact congrArg Host.Outcome.next (if_pos held)

theorem State.freePlaces_powerOnKeeping (s : State) (level : Bool) : (s.powerOnKeeping level).freePlaces = 24576 := by
  change State.reset.freePlaces = 24576
  unfold State.freePlaces
  rw [State.sum_allocation]
  simp only [State.lane_reset]
  decide

theorem State.usedRuns_powerOnKeeping (s : State) (level : Bool) : (s.powerOnKeeping level).usedRuns = [] := by
  change State.reset.usedRuns = []
  rw [State.usedRuns_eq]
  simp [State.lane_reset, Lane.runNumbers, Lane.powerOn, Lane.cleared, Detector.powerOn]

theorem State.profile_reset (k : ProfileId) : State.reset.profile k = HumProfile.powerOn := by
  simp [State.profile, State.reset]

theorem rampPowerOn_entry (i : Fin 16) : rampPowerOn[i] = 16 * (i.val + 1) := by
  revert i
  decide

/-- Settles O3: the part in reset and at the start stands at its power-on values, block by block. -/
theorem resetLineClearsThePart : Obligations.ResetLineClearsThePart := by
  refine ⟨fun c s held assert start => ⟨?_, ?_, fun ready => exec_held held c assert start ready⟩,
    fun s => ⟨s.powerOnKeeping true, rfl, rfl, rfl, rfl, rfl⟩,
    fun s => ⟨s.powerOnKeeping false, rfl, rfl, rfl, rfl, State.lane_reset, s.freePlaces_powerOnKeeping false,
      State.profile_reset, fun k which i => ?_, s.usedRuns_powerOnKeeping false, rfl, rfl, rfl, fun r i => ?_, rfl⟩,
    fun s => ⟨s.powerOnKeeping false, rfl, rfl, rfl, rfl, rfl, rfl, rfl⟩⟩
  · unfold State.intakeHold
    rw [held]
    rfl
  · rintro level rfl
    exact congrArg Host.Outcome.next (if_pos held)
  · change ((State.reset.profile k).bank which).entry i = 0
    rw [State.profile_reset]
    cases which <;> rfl
  · have ramp : (s.powerOnKeeping false).ramps[r] = rampPowerOn := by
      change State.reset.ramps[r] = rampPowerOn
      simp [State.reset]
    rw [ramp]
    exact rampPowerOn_entry i

/-! ### Unknown commands -/

/-- Settles O19: a missing code, or one outside the 24 known ones, makes the head one that BAD_COMMAND takes. -/
theorem unknownCommandIsRefused : Obligations.UnknownCommandIsRefused := by
  intro s p rest running room queue unknown
  have bad : p.isBad = true := by
    unfold ControlParcel.isBad ControlParcel.code?
    obtain missing | ⟨code, args, is, other⟩ := unknown
    · rw [missing]
      rfl
    · rw [is]
      simp only [List.head?_cons, Bool.not_eq_true', List.contains_eq_mem, decide_eq_false_iff_not]
      exact other
  have due : s.takeDue = true := decide_eq_true room
  change execBadCommand s = _
  unfold execBadCommand
  rw [whileRunning_of_deasserted running]
  unfold takeWhen
  rw [queue]
  simp only [bad, due, Bool.and_self, if_true]
  rfl

/-! ### The link, pace and ready events -/

theorem IntakePort.startPace_unique {start : IntakePort → IntakePort}
    (h : ∀ p : IntakePort, start p =
      { p with
        sending :=
          if p.sending = none ∧ p.form ≠ .byLine ∧ p.link = .up ∧ p.lastSent ≠ some p.pace then some p.pace
          else p.sending }) : start = IntakePort.startPace :=
  funext fun p => (h p).trans p.startPace_eq.symm

/-- Settles O22: each event that is due answers its effect, and the delivery pace worked out afresh is R153's. -/
theorem linkPaceAndReadyEvents : Obligations.LinkPaceAndReadyEvents := by
  constructor
  case left =>
    intro s start running starts
    rw [IntakePort.startPace_unique starts]
    refine ⟨fun down => ?_, fun receiving up => ?_, fun x sending => ?_⟩
    · exact (whileRunning_of_deasserted running _).trans (congrArg Host.Outcome.next (if_pos down))
    · refine (whileRunning_of_deasserted running _).trans (congrArg Host.Outcome.next ((if_pos up).trans ?_))
      cases receiving <;> rfl
    · refine (whileRunning_of_deasserted running fun s => { s with intake := s.intake.paceEnd }).trans
        (congrArg Host.Outcome.next ?_)
      unfold IntakePort.paceEnd
      rw [sending]
  case right =>
    intro s running
    refine ⟨fun down => ?_, fun receiving up => ?_, fun level => ?_⟩
    · exact (whileRunning_of_deasserted running _).trans (congrArg Host.Outcome.next (if_pos down))
    · refine (whileRunning_of_deasserted running _).trans (congrArg Host.Outcome.next ((if_pos up).trans ?_))
      unfold DeliveryPort.linkDown
      by_cases idle : s.delivery.transmission = .none
      · simp only [if_pos idle]
        cases receiving <;> rfl
      · simp only [if_neg idle]
        cases receiving <;> rfl
    · refine congrArg Host.Outcome.next ((if_neg (by rw [running]; simp)).trans ?_)
      unfold State.freshPace
      dsimp only
      rw [deliveryPaceOf_eq]

/-! ### The laws at reset -/

theorem laneLaws_powerOn : LaneLaws Lane.powerOn := by decide

theorem laneParcelLaw_powerOn : LaneParcelLaw Lane.powerOn := by decide

theorem humProfile_powerOn_form : HumProfile.powerOn.bankA.wf = true ∧ HumProfile.powerOn.bankB.wf = true
    ∧ HumProfile.powerOn.startPhase < 1024 := by decide

theorem holdMemoryLaw_reset : HoldMemoryLaw State.reset := by
  rw [holdMemoryLaw_iff]
  simp only [State.lane_reset]
  exact ⟨fun _ => ⟨configInRange_default, rfl⟩, by decide⟩

theorem runTableLaw_reset : RunTableLaw State.reset := by
  have none := State.usedRuns_powerOnKeeping State.reset false
  change State.reset.usedRuns = [] at none
  unfold RunTableLaw
  rw [none]
  exact ⟨List.nodup_nil, fun n hn => by contradiction⟩

theorem repairLaw_reset : RepairLaw State.reset := by
  have none : ∀ (l : LaneId) (st : RunState), (State.reset.lane l).runsIn st = [] := fun l st => by
    rw [State.lane_reset]
    rfl
  refine ⟨Nat.zero_le _, List.nodup_nil, fun e he => by contradiction, fun l n hn => ?_, fun e he => by contradiction,
    fun l n hn => ?_⟩
  · rw [none] at hn
    contradiction
  · rw [none] at hn
    contradiction

theorem waitListLaw_reset : WaitListLaw State.reset := by
  refine ⟨List.nodup_nil, fun full => absurd rfl full, fun l => ?_⟩
  rw [State.lane_reset]
  decide +revert

theorem workLaws_reset : WorkLaws State.reset := by
  refine ⟨by decide, holdMemoryLaw_reset, fun p hp => by contradiction, fun l => ?_, runTableLaw_reset, repairLaw_reset,
    waitListLaw_reset⟩
  rw [State.lane_reset]
  exact laneLaws_powerOn

/-- Settles O48: every lane stands at its power-on entry, every profile at its own, and no parcel anywhere. -/
theorem lawsHoldAtReset : Obligations.LawsHoldAtReset := by
  refine ⟨by decide, by decide, by decide, by decide, by decide, checkerBusyLaw_of_search rfl, ⟨fun k => ?_, fun l k turned => ?_⟩,
    fun k due => ?_, workLaws_reset, ⟨fun p hp => by contradiction, fun l => ?_, fun p hp => by contradiction,
      fun m hm => by contradiction⟩, DeliveryPort.transmits_of_none rfl, ⟨fun l => ?_, fun t g hg => ?_⟩, fun l => ?_⟩
  · rw [State.profile_reset]
    exact humProfile_powerOn_form
  · rw [State.lane_reset] at turned
    contradiction
  · rw [State.profile_reset] at due
    contradiction
  · rw [State.lane_reset]
    exact laneParcelLaw_powerOn
  · rw [State.lane_reset]
    exact Lane.gateOk_cleared configInRange_default
  · have gains : ∀ g ∈ rampPowerOn.toList, g ≤ 256 := by decide
    exact gains g (by simpa [State.reset] using hg)
  · rw [State.lane_reset]
    exact Lane.timerLaw_cleared _

end Sys2Proof.Machine
end

section
/-! The lane commands CONFIGURE_LANE, STOP_LANE and ABORT_LANE (R4, R9, R11). A lane that becomes OFF takes one entry,
whatever its departure from RUNNING makes of the shared units. -/

namespace Sys2Proof.Machine

/-! ### CONFIGURE_LANE -/

theorem exec_configureLane (s : State) : exec .configureLane s = takeCommand 0x10 configureLane s := rfl

theorem configureLane_length {args : List Word} (h : args.length ≠ 27) (s : State) :
    configureLane args s = refuse .badLength s := by
  unfold configureLane
  split
  · rename_i w ws
    rw [if_pos]
    simpa using h
  · rfl

/-- Only the words of a record in range are a record (R2). -/
theorem LaneConfig.ofWords_eq_none {ws : List Word} (h : ¬∃ c : LaneConfig, ConfigInRange c ∧ c.words = ws) :
    LaneConfig.ofWords ws = none := by
  cases fields : LaneConfig.ofWords ws with
  | none => rfl
  | some c =>
    obtain ⟨range, words⟩ := LaneConfig.ofWords_eq_some.1 fields
    exact absurd ⟨c, range, words.symm⟩ h

theorem configureLane_badArgument {w : Word} {ws : List Word} (length : ws.length = 26)
    (h : 15 < w.toNat ∨ ¬∃ c : LaneConfig, ConfigInRange c ∧ c.words = ws) (s : State) :
    configureLane (w :: ws) s = refuse .badArgument s := by
  unfold configureLane
  dsimp only
  rw [if_neg (not_not.2 length)]
  obtain above | none := h
  · rw [argLane_above above]
  · rw [LaneConfig.ofWords_eq_none none]
    cases argLane w <;> rfl

theorem configureLane_record (l : LaneId) {c : LaneConfig} (range : ConfigInRange c) (s : State) :
    configureLane (BitVec.ofNat 16 l.val :: c.words) s =
      if (s.lane l).state ≠ .off ∧ (s.lane l).config.changesFixed c = true then refuse .laneActive s
      else if (s.lane l).state ≠ .off ∧ c.route = .generate ∧ (s.lane l).config.route ≠ .generate
          ∧ s.generator.lane ≠ some l then refuse .notAttached s
      else doneWith [] ((s.modLane l fun ln => { ln with config := c }).wake l) := by
  unfold configureLane
  dsimp only
  rw [if_neg (not_not.2 c.length_words), argLane_ofNat, LaneConfig.ofWords_eq_some.2 ⟨range, rfl⟩]

theorem Route.usesHoldLine_eq (r : Route) : r.usesHoldLine = !decide (r ∈ [Route.echo, Route.check]) := by
  cases r <;> rfl

/-- The fields that are not live, and the routes that hold nothing (R2, R4 test 3). -/
theorem LaneConfig.changesFixed_iff (old new : LaneConfig) :
    old.changesFixed new = true ↔
      new.startOption ≠ old.startOption ∨ new.lookahead ≠ old.lookahead ∨ new.parcelLimit ≠ old.parcelLimit
        ∨ new.slack ≠ old.slack
        ∨ (new.route ≠ old.route
          ∧ (new.route ∈ [Route.echo, Route.check] ∨ old.route ∈ [Route.echo, Route.check])) := by
  have routes : (!(new.route.usesHoldLine && old.route.usesHoldLine)) = true
      ↔ new.route ∈ [Route.echo, Route.check] ∨ old.route ∈ [Route.echo, Route.check] := by
    rw [Route.usesHoldLine_eq, Route.usesHoldLine_eq, ← Bool.not_or, Bool.not_not, Bool.or_eq_true, decide_eq_true_eq,
      decide_eq_true_eq]
  unfold LaneConfig.changesFixed
  rw [Bool.or_eq_true, Bool.or_eq_true, Bool.or_eq_true, Bool.or_eq_true, Bool.and_eq_true, routes]
  simp only [decide_eq_true_eq, or_assoc]

/-- Settles O4: the tests of R4 are the branches of the rule, and the last one replaces the record. -/
theorem configureLaneReplacesTheRecord : Obligations.ConfigureLaneReplacesTheRecord := by
  intro s tag args rest h
  rw [exec_configureLane]
  refine ⟨fun length => takeCommand_denied h (configureLane_length length _), ?_, ?_⟩
  · rintro w ws rfl length bad
    exact takeCommand_denied h (configureLane_badArgument length bad _)
  · rintro l c rfl range
    have rule := configureLane_record l range (s.beginTake rest)
    simp only [LaneConfig.changesFixed_iff] at rule
    split
    case isTrue fixed => exact takeCommand_denied h (rule.trans (if_pos fixed))
    case isFalse free =>
      have rule := rule.trans (if_neg free)
      split
      case isTrue lacking => exact takeCommand_denied h (rule.trans (if_pos lacking))
      case isFalse attached =>
        have done := rule.trans (if_neg attached)
        rw [State.wake_offeredAgain] at done
        exact takeCommand_done h done

/-! ### A lane that becomes OFF -/

/-- A lane that is not RUNNING becomes OFF: its entry alone changes, and its waiting head is offered again. -/
theorem State.becomeOff_resting {s : State} {l : LaneId} (rests : (s.lane l).state.isRunning = false) :
    s.becomeOff l =
      { s with
        lanes := s.lanes.set l ((s.lane l).inState .off).clearedOff
        intake := s.intake.offeredAgain l } := by
  unfold State.becomeOff
  rw [State.changeState_staying s l .off (.inl rests), State.wake_offeredAgain]
  simp [State.modLane, State.lane, Lane.inState]

theorem Lane.clearedOff_reducePhase (x : Lane) (k : ProfileId) (len : Nat) :
    (x.reducePhase k len).clearedOff = x.clearedOff := by
  unfold Lane.reducePhase
  split <;> rfl

/-- A change of lane l's entry that does not look at the phase index may be made before or after a swap. -/
theorem State.swap_modLane {f : Lane → Lane} (phase : ∀ x k n, f (Lane.reducePhase x k n) = (f x).reducePhase k n) (u : State)
    (l : LaneId) (k : ProfileId) (a : Option LaneId) (q : SeqNum) :
    (u.swap k a q).modLane l f = (u.modLane l f).swap k a q := by
  have lanes : ∀ n : Nat,
      (u.lanes.map fun (x : Lane) => x.reducePhase k n).set l (f (u.lanes[l].reducePhase k n))
        = (u.lanes.set l (f u.lanes[l])).map fun (x : Lane) => x.reducePhase k n := fun n => by
    refine Vector.ext fun i hi => ?_
    rw [Vector.getElem_map, Vector.getElem_set, Vector.getElem_set]
    split
    · exact phase _ k n
    · rw [Vector.getElem_map]
  unfold State.swap State.modLane State.issue
  dsimp only
  congr 1
  refine Eq.trans ?_ (lanes (u.profile k).swapped.servingBank.length)
  simp

/-- A change of lane l's entry that does not look at the phase index, and changes no use of a profile, may be made before or
after what the lane's leaving makes of the shared units. -/
theorem State.leftBy_modLane {f : Lane → Lane} (phase : ∀ x k n, f (Lane.reducePhase x k n) = (f x).reducePhase k n) {u : State}
    {l : LaneId} (same : ∀ k, (f (u.lane l)).uses k = (u.lane l).uses k) (old : Option ProfileId) :
    (u.leftBy l old).modLane l f = (u.modLane l f).leftBy l old := by
  have uses : ∀ k m, ((u.modLane l f).lane m).uses k = (u.lane m).uses k := fun k m => by
    by_cases hm : m = l
    · subst hm
      rw [State.lane_modLane_same, same]
    · rw [State.lane_modLane_ne u _ hm]
  have users : ∀ k, (u.modLane l f).hasUser k = u.hasUser k := fun k => by
    rw [Bool.eq_iff_iff, State.hasUser_iff, State.hasUser_iff]
    simp only [uses]
  have left : (u.userLeft old).modLane l f = (u.modLane l f).userLeft old := by
    unfold State.userLeft State.swapIfUnused
    split
    · rw [users]
      change (if (u.profile _).swapPending && !u.hasUser _ then _ else _ : State).modLane l _
        = if (u.profile _).swapPending && !u.hasUser _ then _ else _
      split
      · exact State.swap_modLane phase u l _ _ _
      · rfl
    · rfl
  rw [← State.leftBy_eq, ← State.leftBy_eq, ← left]
  unfold State.checkerLoss State.checkerSearch
  change (if (u.userLeft old).checker.lane = some l then _ else _ : State).modLane l _
    = if (u.userLeft old).checker.lane = some l then _ else _
  split
  · dsimp only
    change (if (u.userLeft old).checker.state.isLocked then _ else _ : State).modLane l _
      = if (u.userLeft old).checker.state.isLocked then _ else _
    split <;> rfl
  · rfl

/-- The entry of an OFF lane that leaves a profile behind may be cleared before or after what its leaving makes of the
shared units: it uses no profile either way. -/
theorem State.leftBy_clearedOff {u : State} {l : LaneId} (rests : (u.lane l).state.isRunning = false)
    (old : Option ProfileId) :
    (u.leftBy l old).modLane l Lane.clearedOff = (u.modLane l Lane.clearedOff).leftBy l old :=
  State.leftBy_modLane (fun x k n => Lane.clearedOff_reducePhase x k n) (fun k => by simp [Lane.uses, Lane.clearedOff, rests])
    old

/-- A RUNNING lane becomes OFF: its entry changes as another's does, and its leaving RUNNING makes what it makes of the
shared units (R38, R128). -/
theorem State.becomeOff_running {s : State} {l : LaneId} (runs : (s.lane l).state.isRunning = true) :
    s.becomeOff l =
      State.leftBy
        { s with
          lanes := s.lanes.set l ((s.lane l).inState .off).clearedOff
          intake := s.intake.offeredAgain l } l (s.lane l).hum.profile := by
  unfold State.becomeOff
  rw [State.changeState_leaving s l .off runs rfl, State.leftBy_clearedOff, State.wake_offeredAgain]
  · simp [State.modLane, State.lane, Lane.inState]
  · rw [State.lane_wake, State.lane_modLane_same]
    rfl

/-! ### STOP_LANE at rest -/

theorem exec_stopLane (s : State) : exec .stopLane s = takeCommand 0x12 (laneCommand stopLane) s := rfl

/-- Settles O6: of the five rows of R9, OFF and DRAINING toward OFF change nothing, and the other two change one entry. -/
theorem stopLaneAtRestOrDraining : Obligations.StopLaneAtRestOrDraining := by
  intro s tag args rest h
  rw [exec_stopLane]
  obtain ⟨badLength, badArgument⟩ := takeCommand_laneTests h stopLane
  refine ⟨badLength, badArgument, ?_⟩
  rintro l rfl
  have rule := laneCommand_lane l stopLane (s.beginTake rest)
  have same : (s.beginTake rest).lane l = s.lane l := rfl
  refine ⟨fun off => ?_, fun atRest => ?_, fun toArmed => ?_, fun toOff => ?_⟩
  · have idle : stopLane l (s.beginTake rest)
        = { outcome := .laneIdle, refused := false, words := [], after := s.beginTake rest } := by
      unfold stopLane
      rw [same, off]
    rw [takeCommand_ready _ h, rule, idle]
    rfl
  · have stopped : stopLane l (s.beginTake rest)
        = doneWith [] (((s.beginTake rest).becomeOff l).issue (laneNotice .laneIdle l 0 0)) := by
      unfold stopLane
      obtain armed | stalled := atRest
      · rw [same, armed]
      · rw [same, stalled]
    have rests : ((s.beginTake rest).lane l).state.isRunning = false := by
      obtain armed | stalled := atRest
      · rw [same, armed]
        rfl
      · rw [same, stalled]
        rfl
    rw [State.becomeOff_resting rests] at stopped
    exact takeCommand_done h (rule.trans stopped)
  · have retargeted : stopLane l (s.beginTake rest)
        = doneWith [] ((s.beginTake rest).changeState l (.draining .off)) := by
      unfold stopLane
      rw [same, toArmed]
    have rests : ((s.beginTake rest).lane l).state.isRunning = false := by
      rw [same, toArmed]
      rfl
    rw [State.changeState_staying _ _ _ (.inl rests), State.wake_offeredAgain] at retargeted
    exact takeCommand_done h (rule.trans retargeted)
  · have kept : stopLane l (s.beginTake rest) = doneWith [] (s.beginTake rest) := by
      unfold stopLane
      rw [same, toOff]
    exact takeCommand_done h (rule.trans kept)

/-! ### ABORT_LANE -/

theorem exec_abortLane (s : State) : exec .abortLane s = takeCommand 0x13 (laneCommand abortLane) s := rfl

/-- The part with the lane's work gone from its entry and from the shared units (R11, R93, R113). -/
def State.discarded (s : State) (l : LaneId) : State :=
  { s with
    lanes := s.lanes.set l (Lane.discardWork { s.lane l with det := { (s.lane l).det with runs := [] } })
    fullNoticed := s.fullNoticed && (s.lane l).det.runs.isEmpty
    repair :=
      { queue := s.repair.queue.filter fun e => decide (e.lane ≠ l)
        inProgress := s.repair.inProgress.filter fun e => decide (e.lane ≠ l) }
    waitList := s.waitList.filter fun m => decide (m ≠ l) }

theorem State.lane_discarded (s : State) (l : LaneId) :
    (s.discarded l).lane l = Lane.discardWork { s.lane l with det := { (s.lane l).det with runs := [] } } := by
  simp [State.discarded, State.lane]

/-- The release of a lane's records empties its list; one record released clears the full-noticed flag (R66). -/
theorem State.dropRuns_eq (s : State) (l : LaneId) :
    s.dropRuns l =
      { s.modDet l fun d => { d with runs := [] } with fullNoticed := s.fullNoticed && (s.lane l).det.runs.isEmpty } := by
  unfold State.dropRuns
  cases held : (s.lane l).det.runs with
  | nil =>
    have same : ({ s.lane l with det := { (s.lane l).det with runs := [] } } : Lane) = s.lane l := by rw [← held]
    have kept : (s.modDet l fun d => { d with runs := [] }) = s := by
      unfold State.modDet State.modLane
      change ({ s with lanes := s.lanes.set l { s.lane l with det := { (s.lane l).det with runs := [] } } } : State) = s
      rw [same]
      simp [State.lane]
    simp [kept]
  | cons r rest => simp

/-- An abort discards the lane's work and makes it OFF. -/
theorem State.abort_eq (s : State) (l : LaneId) : s.abort l = (s.discarded l).becomeOff l := by
  have waiting : (fun m : LaneId => m != l) = fun m => decide (m ≠ l) := funext fun m => by
    by_cases h : m = l <;> simp [h]
  unfold State.abort State.leaveWait
  rw [State.dropRuns_eq, waiting]
  refine congrArg (fun u : State => u.becomeOff l) ?_
  simp [State.discarded, State.modLane, State.modDet, State.lane, State.dropRepairWork]

theorem State.userLeft_control (u : State) (k : Option ProfileId) (c : ControlUnit) :
    State.userLeft { u with control := c } k = { u.userLeft k with control := c } := by
  unfold State.userLeft State.swapIfUnused
  split
  · change (if (u.profile _).swapPending && !u.hasUser _ then _ else _)
      = { (if (u.profile _).swapPending && !u.hasUser _ then _ else _ : State) with control := c }
    split <;> rfl
  · rfl

theorem State.checkerLoss_control (u : State) (l : LaneId) (seq : SeqNum) (d : Word) (c : ControlUnit) :
    State.checkerLoss { u with control := c } l seq d = { u.checkerLoss l seq d with control := c } := by
  unfold State.checkerLoss State.checkerSearch
  dsimp only
  split
  · split <;> rfl
  · rfl

/-- What a lane's leaving makes of the shared units does not look at the control unit. -/
theorem State.leftBy_control (u : State) (l : LaneId) (old : Option ProfileId) (c : ControlUnit) :
    State.leftBy { u with control := c } l old = { u.leftBy l old with control := c } := by
  rw [← State.leftBy_eq, ← State.leftBy_eq, State.userLeft_control, State.checkerLoss_control]

/-- A command in whose take a lane leaves RUNNING is answered as from the part before the take. -/
theorem State.done_leftBy {u : State} {l : LaneId} {old : Option ProfileId} {c : ControlUnit} (h : u.control = c)
    (tag : Word) (rest : List ControlParcel) :
    (State.leftBy { u with control := { c with queue := rest } } l old).replied tag
        (State.leftBy { u with control := { c with queue := rest } } l old).control.queue .done false []
      = (u.leftBy l old).done tag rest [] := by
  have control : (u.leftBy l old).control = c := (u.leftBy_share l l old).work.control.trans h
  rw [State.leftBy_control]
  unfold State.done State.replied
  rw [control]

/-- The entry of an aborted lane (R11, R93, R113). -/
theorem Lane.aborted_eq (x : Lane) :
    ((Lane.discardWork { x with det := { x.det with runs := [] } }).inState .off).clearedOff =
      { state := .off
        config := x.config
        allocation := 0
        expected := none
        nextPosition := x.nextPosition
        timer := { remaining := x.timer.remaining, counting := false }
        marks := []
        counters := x.counters
        hum := { profile := none, index := 0, restart := false }
        det :=
          { h1 := 0, h2 := 0, valid := 0, lastEntered := none, calmCount := 0, calmStart := none
            forcedRemainder := 0
            forcedCauses := { detected := false, splice := false, junction := false, conceal := false }
            runs := [] }
        held := []
        assembly := .empty
        gate := .opened } := rfl

/-- Settles O8: an abort is the discard of the lane's work and the change to OFF, RUNNING before or not. -/
theorem abortLaneDiscardsTheLane : Obligations.AbortLaneDiscardsTheLane := by
  intro s tag args rest h
  rw [exec_abortLane]
  obtain ⟨badLength, badArgument⟩ := takeCommand_laneTests h abortLane
  refine ⟨badLength, badArgument, ?_⟩
  rintro l rfl
  have rule := laneCommand_lane l abortLane (s.beginTake rest)
  refine ⟨fun off => takeCommand_denied h (rule.trans (if_pos off)), fun active => ?_⟩
  have aborted := rule.trans (if_neg active)
  rw [State.abort_eq] at aborted
  have entry := State.lane_discarded (s.beginTake rest) l
  have state : (((s.beginTake rest).discarded l).lane l).state = (s.lane l).state := by
    rw [entry]
    rfl
  have lanes : ((s.beginTake rest).discarded l).lanes.set l
        (((((s.beginTake rest).discarded l).lane l).inState .off).clearedOff) =
      s.lanes.set l ((Lane.discardWork { s.lane l with det := { (s.lane l).det with runs := [] } }).inState .off).clearedOff := by
    rw [entry]
    simp only [State.discarded, Vector.set_set]
    rfl
  simp only [← Lane.aborted_eq]
  cases runs : (s.lane l).state.isRunning with
  | true =>
    rw [State.becomeOff_running (by rw [state]; exact runs), lanes, entry] at aborted
    refine takeCommand_done h aborted ?_
    rw [if_pos rfl]
    exact State.done_leftBy (u :=
      { s.inTake.discarded l with
        lanes := s.lanes.set l
          ((Lane.discardWork { s.lane l with det := { (s.lane l).det with runs := [] } }).inState .off).clearedOff
        intake := s.intake.offeredAgain l }) rfl tag rest
  | false =>
    rw [State.becomeOff_resting (by rw [state]; exact runs), lanes] at aborted
    exact takeCommand_done h aborted

end Sys2Proof.Machine
end

section
/-! The hum commands SET_HUM, COMMIT_HUM and RESYNC_HUM (R34, R36, R43). Each rule's tests and effects are said once, over
any state. -/

namespace Sys2Proof.Machine

/-! ### The operands -/

theorem argRange_outside {lo hi : Nat} {w : Word} (h : ¬(lo ≤ w.toNat ∧ w.toNat ≤ hi)) : argRange lo hi w = none := if_neg h

theorem argResync_above {w : Word} (h : 3 < w.toNat) : argResync w = none := by
  unfold argResync
  split <;> first | omega | rfl

theorem argResync_code (r : ResyncSource) : argResync (BitVec.ofNat 16 r.code) = some r := by cases r <;> rfl

theorem argHumLength_outside {w : Word} (h : (1 ≤ w.toNat ∧ w.toNat ≤ 15) ∨ 1024 < w.toNat) : argHumLength w = none := by
  unfold argHumLength
  rw [if_neg (by omega)]
  exact argRange_outside (by omega)

theorem argHumLength_ofNat {n : Nat} (h : n = 0 ∨ (16 ≤ n ∧ n ≤ 1024)) : argHumLength (BitVec.ofNat 16 n) = some n := by
  unfold argHumLength
  rw [toNat_ofNat_word (by omega)]
  obtain zero | ⟨low, high⟩ := h
  · rw [if_pos zero, zero]
  · rw [if_neg (by omega), argRange_ofNat low high (by omega)]

/-! ### SET_HUM -/

theorem exec_setHum (s : State) : exec .setHum s = takeCommand 0x22 setHum s := rfl

theorem setHum_length {args : List Word} (h : args.length ≠ 4) (s : State) : setHum args s = refuse .badLength s := by
  match args with
  | [] | [_] | [_, _] | [_, _, _] | _ :: _ :: _ :: _ :: _ :: _ => rfl
  | [_, _, _, _] => exact absurd rfl h

theorem setHum_badArgument {p n f r : Word}
    (h : 7 < p.toNat ∨ (1 ≤ n.toNat ∧ n.toNat ≤ 15) ∨ 1024 < n.toNat ∨ 1023 < f.toNat ∨ 3 < r.toNat) (s : State) :
    setHum [p, n, f, r] s = refuse .badArgument s := by
  unfold setHum
  dsimp only
  split
  · rename_i profile length phase resync
    obtain above | low | high | above | above := h
    · rw [argProfile_above above] at profile
      contradiction
    · rw [argHumLength_outside (.inl low)] at length
      contradiction
    · rw [argHumLength_outside (.inr high)] at length
      contradiction
    · rw [argRange_outside (by omega)] at phase
      contradiction
    · rw [argResync_above above] at resync
      contradiction
  · rfl

theorem setHum_inRange (k : ProfileId) {n f : Nat} (r : ResyncSource) (length : n = 0 ∨ (16 ≤ n ∧ n ≤ 1024)) (phase : f < 1024)
    (s : State) :
    setHum [BitVec.ofNat 16 k.val, BitVec.ofNat 16 n, BitVec.ofNat 16 f, BitVec.ofNat 16 r.code] s =
      if n ≠ 0 ∧ (s.profile k).swapPending = true then refuse .bankBusy s
      else doneWith [] (s.modProfile k fun p =>
        { (if n = 0 then p else p.setLoadingLength n) with startPhase := f, resync := r }) := by
  simp only [setHum, argProfile_ofNat, argHumLength_ofNat length, argResync_code,
    argRange_ofNat (Nat.zero_le f) (Nat.le_of_lt_succ phase) (by omega)]

/-- A profile with its settings taken, bank by bank (R34). -/
theorem HumProfile.set_eq (p : HumProfile) (n f : Nat) (r : ResyncSource) :
    ({ (if n = 0 then p else p.setLoadingLength n) with startPhase := f, resync := r } : HumProfile) =
      { bankA := if n ≠ 0 ∧ p.serving = .b then { length := n, entries := p.bankA.entries } else p.bankA
        bankB := if n ≠ 0 ∧ p.serving = .a then { length := n, entries := p.bankB.entries } else p.bankB
        serving := p.serving
        startPhase := f
        resync := r
        swapPending := p.swapPending } := by
  by_cases zero : n = 0
  · simp [zero]
  · cases serving : p.serving <;>
      simp [zero, serving, HumProfile.setLoadingLength, HumProfile.setBank, HumProfile.bank, BankId.other]

/-! ### COMMIT_HUM -/

theorem exec_commitHum (s : State) : exec .commitHum s = takeCommand 0x23 commitHum s := rfl

theorem commitHum_length {args : List Word} (h : args.length ≠ 1) (s : State) : commitHum args s = refuse .badLength s := by
  match args with
  | [] | _ :: _ :: _ => rfl
  | [_] => exact absurd rfl h

theorem commitHum_above {w : Word} (h : 7 < w.toNat) (s : State) : commitHum [w] s = refuse .badArgument s := by
  simp only [commitHum, argProfile_above h]

theorem commitHum_profile (k : ProfileId) (s : State) :
    commitHum [BitVec.ofNat 16 k.val] s =
      if (s.profile k).swapPending then refuse .swapPending s
      else if s.hasUser k then doneWith [0] (s.modProfile k fun p => { p with swapPending := true })
      else doneWith [1] ((s.modProfile k fun p => { p with swapPending := true }).swap k none 0) := by
  simp only [commitHum, argProfile_ofNat]

theorem State.hasUser_iff_running (s : State) (k : ProfileId) :
    s.hasUser k = true ↔ ∃ l : LaneId, (s.lane l).state.isRunning = true ∧ (s.lane l).hum.profile = some k := by
  rw [State.hasUser_iff]
  simp only [Lane.uses, Bool.and_eq_true, decide_eq_true_eq]

/-- A commit that finds no user: the swap is taken at once (R35, R36). -/
theorem State.committedSwap_eq {s : State} {k : ProfileId} (idle : (s.profile k).swapPending = false) :
    (s.modProfile k fun p => { p with swapPending := true }).swap k none 0 =
      State.issue
        { s with
          profiles := s.profiles.set k { s.profile k with serving := (s.profile k).serving.other }
          lanes := s.lanes.map fun (ln : Lane) =>
            if ln.hum.profile = some k then
              { ln with
                hum := { ln.hum with index := ln.hum.index % ((s.profile k).bank (s.profile k).serving.other).length } }
            else ln }
        { kind := .humSwapped, lane := none, seq := 0, detail := BitVec.ofNat 16 k.val
          causes := { detected := false, splice := false, junction := false, conceal := false } } := by
  have same : ({ s.profile k with serving := (s.profile k).serving.other, swapPending := false } : HumProfile)
      = { s.profile k with serving := (s.profile k).serving.other } := by rw [← idle]
  rw [State.swap_eq, State.profile_modProfile_same]
  dsimp only
  rw [same]
  unfold State.modProfile
  simp only [Vector.set_set]
  rfl

theorem HumProfile.other_serving (p : HumProfile) :
    p.serving.other = (if p.serving = .a then BankId.b else .a)
      ∧ p.bank p.serving.other = if p.serving = .a then p.bankB else p.bankA := by
  cases p.serving <;> exact ⟨rfl, rfl⟩

/-! ### RESYNC_HUM -/

theorem exec_resyncHum (s : State) : exec .resyncHum s = takeCommand 0x24 resyncHum s := rfl

theorem resyncHum_length {args : List Word} (h : args.length ≠ 1) (s : State) : resyncHum args s = refuse .badLength s := by
  match args with
  | [] | _ :: _ :: _ => rfl
  | [_] => exact absurd rfl h

theorem resyncHum_above {w : Word} (h : 7 < w.toNat) (s : State) : resyncHum [w] s = refuse .badArgument s := by
  simp only [resyncHum, argProfile_above h]

theorem resyncHum_profile (k : ProfileId) (s : State) :
    resyncHum [BitVec.ofNat 16 k.val] s =
      if (s.profile k).resync ≠ .command then refuse .badArgument s
      else doneWith [natWord (s.lanes.toList.countP fun ln => ln.configuredFor k)]
        { s with lanes := s.lanes.map fun (ln : Lane) => ln.markRestart k } := by
  simp only [resyncHum, argProfile_ofNat]

/-- The number of lanes configured for a profile, lane by lane. -/
theorem State.countP_configuredFor (s : State) (k : ProfileId) :
    (s.lanes.toList.countP fun ln => ln.configuredFor k)
      = (List.finRange 16).countP fun l => decide ((s.lane l).config.humProfile = some k) := by
  rw [State.toList_lanes, List.countP_map]
  rfl

theorem Lane.markRestart_eq (k : ProfileId) :
    (fun (ln : Lane) => ln.markRestart k) = fun (ln : Lane) =>
      if ln.config.humProfile = some k then { ln with hum := { ln.hum with restart := true } } else ln := by
  funext ln
  simp only [Lane.markRestart, Lane.configuredFor, decide_eq_true_eq]

/-! ### The claim -/

/-- Settles O11: the tests of R34, R36 and R43 are the branches of their rules. -/
theorem humProfileIsSetCommittedAndResynced : Obligations.HumProfileIsSetCommittedAndResynced := by
  refine ⟨fun s tag args rest h => ?_, fun s tag args rest h => ?_, fun s tag args rest h => ?_⟩
  · simp only [exec_setHum]
    refine ⟨fun length => takeCommand_denied h (setHum_length length _), ?_, ?_⟩
    · rintro p n f r rfl outside
      exact takeCommand_denied h (setHum_badArgument outside _)
    · rintro k n f r p rfl length phase rfl
      have rule := setHum_inRange k r length phase (s.beginTake rest)
      split
      case isTrue busy => exact takeCommand_denied h (rule.trans (if_pos busy))
      case isFalse free =>
        rw [← HumProfile.set_eq (s.profile k) n f r]
        exact takeCommand_done h (rule.trans (if_neg free))
  · simp only [exec_commitHum]
    refine ⟨fun length => takeCommand_denied h (commitHum_length length _), ?_, ?_⟩
    · rintro w rfl above
      exact takeCommand_denied h (commitHum_above above _)
    · rintro k p rfl rfl
      have rule := commitHum_profile k (s.beginTake rest)
      split
      case isTrue pending => exact takeCommand_denied h (rule.trans (if_pos pending))
      case isFalse idle =>
        have rule := rule.trans (if_neg idle)
        have user := (s.beginTake rest).hasUser_iff_running k
        split
        case isTrue used => exact takeCommand_done h (rule.trans (if_pos (user.2 used)))
        case isFalse unused =>
          have done := rule.trans (if_neg (mt user.1 unused))
          obtain ⟨other, bank⟩ := (s.profile k).other_serving
          have idle : (s.profile k).swapPending = false := Bool.eq_false_of_not_eq_true idle
          rw [State.committedSwap_eq (s := s.beginTake rest) idle] at done
          simp only [← other, ← bank]
          exact takeCommand_done h done
  · simp only [exec_resyncHum]
    refine ⟨fun length => takeCommand_denied h (resyncHum_length length _), ?_, ?_⟩
    · rintro w rfl above
      exact takeCommand_denied h (resyncHum_above above _)
    · rintro k rfl
      have rule := resyncHum_profile k (s.beginTake rest)
      split
      case isTrue other => exact takeCommand_denied h (rule.trans (if_pos other))
      case isFalse command =>
        have done := rule.trans (if_neg command)
        rw [Lane.markRestart_eq, State.countP_configuredFor] at done
        exact takeCommand_done h done

end Sys2Proof.Machine
end

section
/-! The commands of the checker and of SET_PATTERN (R117, R119, R127), and RESET_PART (R170). -/

namespace Sys2Proof.Machine

/-! ### SET_PATTERN -/

theorem exec_setPattern (s : State) : exec .setPattern s = takeCommand 0x40 setPattern s := rfl

theorem setPattern_length {args : List Word} (h : args.length ≠ 4) (s : State) :
    setPattern args s = refuse .badLength s := by
  match args with
  | [] | [_] | [_, _] | [_, _, _] | _ :: _ :: _ :: _ :: _ :: _ => rfl
  | [_, _, _, _] => exact absurd rfl h

theorem argPatternKind_above {w : Word} (h : 2 < w.toNat) : argPatternKind w = none := by
  unfold argPatternKind
  split <;> first | omega | rfl

theorem argPattern_outside {k a : Word} (b : Word)
    (h : 2 < k.toNat ∨ (k = 0 ∧ (a.toNat = 0 ∨ 32767 < a.toNat))) : argPattern k a b = none := by
  obtain above | ⟨rfl, seed⟩ := h
  · simp [argPattern, argPatternKind_above above]
  · exact if_pos ⟨rfl, seed⟩

theorem setPattern_badArgument {u k a : Word} (b : Word)
    (h : 1 < u.toNat ∨ 2 < k.toNat ∨ (k = 0 ∧ (a.toNat = 0 ∨ 32767 < a.toNat))) (s : State) :
    setPattern [u, k, a, b] s = refuse .badArgument s := by
  unfold setPattern
  dsimp only
  split
  · rename_i unit pattern
    obtain above | outside := h
    · rw [argRange_outside (by omega)] at unit
      contradiction
    · rw [argPattern_outside b outside] at pattern
      contradiction
  · rfl

theorem setPattern_generator {k : PatternKind} {a : Word} (b : Word)
    (seed : k = .shift15 → 1 ≤ a.toNat ∧ a.toNat ≤ 32767) (s : State) :
    setPattern [0, BitVec.ofNat 16 k.code, a, b] s =
      doneWith [] { s with generator := { s.generator with setting := { kind := k, first := a, second := b }, next := a } } := by
  simp only [setPattern, argPattern_code b seed]
  rfl

theorem setPattern_checker {k : PatternKind} {a : Word} (b : Word)
    (seed : k = .shift15 → 1 ≤ a.toNat ∧ a.toNat ≤ 32767) (s : State) :
    setPattern [1, BitVec.ofNat 16 k.code, a, b] s =
      doneWith [] (State.checkerSearch
        { s with checker := { s.checker with setting := { kind := k, first := a, second := b } } } 0 3) := by
  simp only [setPattern, argPattern_code b seed]
  rfl

/-- The checker's return to SEARCH by a command: a LOCKED one reports it (R117, R119). -/
theorem State.checkerSearch_locked (s : State) (locked : s.checker.state.isLocked = true) (seq : SeqNum) (d : Word) :
    s.checkerSearch seq d =
      State.issue { s with checker := { s.checker with state := .search } }
        { kind := .checkLost, lane := s.checker.lane, seq := seq, detail := d
          causes := { detected := false, splice := false, junction := false, conceal := false } } := if_pos locked

theorem State.checkerSearch_free (s : State) (free : ¬s.checker.state.isLocked = true) (seq : SeqNum) (d : Word) :
    s.checkerSearch seq d = { s with checker := { s.checker with state := .search } } := if_neg free

/-- Settles O12: the tests of R117 are the branches of its rule, and each unit has one row. -/
theorem setPatternSetsAUnit : Obligations.SetPatternSetsAUnit := by
  intro s tag args rest h
  simp only [exec_setPattern]
  refine ⟨fun length => takeCommand_denied h (setPattern_length length _), ?_, ?_, ?_⟩
  · rintro u k a b rfl outside
    exact takeCommand_denied h (setPattern_badArgument b outside _)
  · rintro k a b rfl seed
    exact takeCommand_done h (setPattern_generator b seed _)
  · rintro k a b rfl seed
    have done := setPattern_checker b seed (s.beginTake rest)
    split
    case isTrue locked =>
      rw [State.checkerSearch_locked] at done
      · exact takeCommand_done h done
      · exact locked
    case isFalse free =>
      rw [State.checkerSearch_free] at done
      · exact takeCommand_done h done
      · exact free

/-! ### ATTACH_CHECKER and LATCH_CHECKER -/

theorem exec_attachChecker (s : State) : exec .attachChecker s = takeCommand 0x42 attachChecker s := rfl

theorem attachChecker_length {args : List Word} (h : args.length ≠ 1) (s : State) :
    attachChecker args s = refuse .badLength s := by
  match args with
  | [] | _ :: _ :: _ => rfl
  | [_] => exact absurd rfl h

theorem attachChecker_outside {w : Word} (above : 15 < w.toNat) (named : w.toNat ≠ 255) (s : State) :
    attachChecker [w] s = refuse .badArgument s := by
  simp only [attachChecker, argLaneOrNone_outside above named]

theorem attachChecker_lane (new : Option LaneId) (s : State) :
    attachChecker [BitVec.ofNat 16 (laneCode new)] s =
      if s.unitInUse s.checker.lane new .check = true then refuse .inUse s
      else doneWith [] (State.checkerSearch { s with checker := { s.checker with lane := new } } 0 3) := by
  simp only [attachChecker, argLaneOrNone_laneCode]

theorem exec_latchChecker (s : State) : exec .latchChecker s = takeCommand 0x43 (bareCommand latchChecker) s := rfl

/-- The ten result words of LATCH_CHECKER (R127, R181). -/
theorem State.latchWords_eq (s : State) :
    s.latchWords =
      [(match s.checker.state with | .search => 0 | .verify _ _ => 1 | .locked _ _ => 2),
        (match s.checker.lane with | some l => l.val | none => 255),
        (match s.generator.lane with | some l => l.val | none => 255),
        (match s.checker.state with | .search => 0 | .verify _ n => n | .locked _ _ => 24),
        (match s.checker.state with | .search => 0 | .verify _ _ => 0 | .locked _ h => h.count .mismatched),
        s.checker.wordCount.toNat / 65536, s.checker.wordCount.toNat % 65536,
        s.checker.errorCount.toNat / 65536, s.checker.errorCount.toNat % 65536,
        s.checker.wordSaturated.toNat + 2 * s.checker.errorSaturated.toNat].map (BitVec.ofNat 16) := by
  have flags : flagBit s.checker.wordSaturated 0 + flagBit s.checker.errorSaturated 1
      = s.checker.wordSaturated.toNat + 2 * s.checker.errorSaturated.toNat := by
    cases s.checker.wordSaturated <;> cases s.checker.errorSaturated <;> rfl
  have errors : (s.checker.errorCount.setWidth 32).toNat = s.checker.errorCount.toNat := by
    rw [BitVec.toNat_setWidth]
    have := s.checker.errorCount.isLt
    omega
  unfold State.latchWords
  dsimp only
  rw [flags, words32_eq, words32_eq, errors]
  cases s.checker.state <;> cases s.checker.lane <;> cases s.generator.lane <;> rfl

/-- Settles O14: the tests of R119 are the branches of its rule, and the latch reads before it clears. -/
theorem checkerIsAttachedAndLatched : Obligations.CheckerIsAttachedAndLatched := by
  constructor
  case left =>
    intro s tag args rest h
    simp only [exec_attachChecker]
    refine ⟨fun length => takeCommand_denied h (attachChecker_length length _), ?_, ?_⟩
    · rintro w rfl above named
      exact takeCommand_denied h (attachChecker_outside above named _)
    · rintro new rfl
      have inUse := (s.beginTake rest).unitInUse_iff s.checker.lane new .check
      have rule := attachChecker_lane new (s.beginTake rest)
      split
      case isTrue busy => exact takeCommand_denied h (rule.trans (if_pos (inUse.2 busy)))
      case isFalse free =>
        have done := rule.trans (if_neg (mt inUse.1 free))
        split
        case isTrue locked =>
          rw [State.checkerSearch_locked] at done
          · exact takeCommand_done h done
          · exact locked
        case isFalse other =>
          rw [State.checkerSearch_free] at done
          · exact takeCommand_done h done
          · exact other
  case right =>
    intro s tag args rest h
    simp only [exec_latchChecker]
    refine ⟨fun extra => takeCommand_denied h (bareCommand_length extra _ _), ?_⟩
    rintro rfl
    have latched : takeCommand 0x43 (bareCommand latchChecker) s
        = .next (State.done { s with checker := s.checker.clearCounts } tag rest (s.beginTake rest).latchWords) :=
      takeCommand_done h rfl
    rw [latched, State.latchWords_eq]
    rfl

/-! ### RESET_PART -/

theorem exec_resetPart (s : State) : exec .resetPart s = takeCommand 0x60 (bareCommand resetPart) s := rfl

/-- Every lane is OFF with its record kept, its entry otherwise that of a power-on (R29, R46, R69, R94, R114). -/
theorem Lane.cleared_eq (c : LaneConfig) (l : LaneId) : Lane.cleared c = { State.reset.lane l with config := c } := by
  rw [State.lane_reset]
  rfl

theorem State.freePlaces_resetPart (s : State) : s.resetPart.freePlaces = 24576 := by
  unfold State.freePlaces
  rw [State.sum_allocation]
  simp only [State.lane_resetPart]
  have none : ∀ c, (Lane.cleared c).allocation = 0 := fun _ => rfl
  simp [none, Config.holdPlaces]

/-- With its queue empty an accepting port is at GO, whatever its levels above 0 (R141, R147). -/
theorem IntakePort.resetPart_eq (p : IntakePort) :
    p.resetPart =
      { p with
        queue := []
        headWaiting := false
        port := .accepting
        drops := 0
        overrunNoticed := false
        pace := p.resetPart.pace
        sending := p.resetPart.sending
        counters := Vector.replicate 11 0 }
    ∧ (p.haltLevel ≠ 0 → p.resetPart.pace = .go
        ∧ p.resetPart.sending =
          if p.sending = none ∧ p.form ≠ .byLine ∧ p.link = .up ∧ p.lastSent ≠ some .go then some .go else p.sending) := by
  unfold IntakePort.resetPart
  rw [IntakePort.repace_eq]
  refine ⟨rfl, fun level => ?_⟩
  have go : (if PortState.accepting = .halted ∨ p.haltLevel ≤ ([] : List InParcel).length then Pace.stop
      else if ([] : List InParcel).length ≤ p.resumeLevel then .go else p.pace) = .go := by
    simp [level]
  unfold IntakePort.paced
  dsimp only at go ⊢
  rw [go]
  exact ⟨rfl, rfl⟩

/-- Settles O18: RESET_PART block by block, and the REPLY after all of it. -/
theorem resetPartClearsTheWork : Obligations.ResetPartClearsTheWork := by
  intro s tag args rest h
  simp only [exec_resetPart]
  refine ⟨fun extra => takeCommand_denied h (bareCommand_length extra _ _), ?_⟩
  rintro rfl
  have profile : ∀ k, s.resetPart.profile k = (s.profile k).cancelSwap := fun k => by
    simp [State.resetPart, State.profile]
  obtain ⟨intake, pace⟩ := s.intake.resetPart_eq
  refine ⟨s.resetPart.done tag rest [], takeCommand_done (u := (s.beginTake rest).resetPart) h rfl, fun l => ?_,
    s.freePlaces_resetPart, profile, rfl, rfl, rfl, rfl, rfl, rfl, intake, pace, rfl, rfl, rfl, rfl, rfl⟩
  change s.resetPart.lane l = _
  rw [State.lane_resetPart]
  exact Lane.cleared_eq _ l

end Sys2Proof.Machine
end

section
/-! Parcels that arrive on the two receiving pairs (R133 to R137, R154, R165), and what the layout of R176 gives back to
their tests. The verdict on a parcel is said once, over its words. -/

namespace Sys2Proof.Machine

/-! ### The verdict, over the words of a parcel -/

theorem lengthDisagrees_kept (ws : List Word) (received : Nat) :
    lengthDisagrees (ws.take 517) received = lengthDisagrees ws received := by
  obtain ⟨kind, _, _, _, count⟩ := header_kept ws
  simp only [lengthDisagrees, kind, count]

theorem lengthDisagrees_iff {ws : List Word} {received : Nat} :
    lengthDisagrees ws received = true ↔
      received ≠ 5 + hdrCount ws ∨ 517 < received ∨ (hdrKind ws = 2 ∧ hdrCount ws ≠ 3)
        ∨ (hdrKind ws = 6 ∧ hdrCount ws ≠ 1) := by
  simp only [lengthDisagrees, Bool.or_eq_true, Bool.and_eq_true, decide_eq_true_eq, or_assoc]
  rfl

theorem kindKnown_iff {k : Nat} : kindKnown k = true ↔ 1 ≤ k ∧ k ≤ 6 := by
  simp only [kindKnown, Bool.and_eq_true, decide_eq_true_eq]

/-- A parcel whose check word disagrees fails test 1 on either pair (R134, R154). -/
theorem verdicts_of_check {rx : List RxWord} (h : checkRegister rx ≠ some 0) :
    intakeVerdict rx = .damaged 1 ∧ returnVerdict rx = .damaged := by
  unfold intakeVerdict returnVerdict
  exact ⟨if_pos h, if_pos h⟩

theorem verdicts_of_symbolError {rx : List RxWord} (h : RxWord.symbolError ∈ rx) :
    intakeVerdict rx = .damaged 1 ∧ returnVerdict rx = .damaged :=
  verdicts_of_check (by simp [checkRegister_symbolError h])

theorem verdicts_of_crc {ws : List Word} (h : crc ws ≠ 0) :
    intakeVerdict (receivedAs ws) = .damaged 1 ∧ returnVerdict (receivedAs ws) = .damaged :=
  verdicts_of_check (by simpa [checkRegister_receivedAs] using h)

/-- The tests of R134 behind the check word. -/
theorem intakeVerdict_receivedAs {ws : List Word} (h : crc ws = 0) :
    intakeVerdict (receivedAs ws) =
      if ¬(1 ≤ hdrKind ws ∧ hdrKind ws ≤ 6) then .damaged 2
      else if hdrKind ws ≠ 1 ∧ hdrKind ws ≠ 2 then .misdirected
      else if lengthDisagrees ws ws.length then .damaged 3
      else if hdrKind ws = 1 ∧ hdrCount ws = 0 then .damaged 4
      else intakeFields (ws.take 517) := by
  obtain ⟨kind, _, _, _, count⟩ := header_kept ws
  unfold intakeVerdict
  simp only [checkRegister_receivedAs, keptWords_receivedAs, length_receivedAs, lengthDisagrees_kept, kind, count, h, ne_eq,
    not_true_eq_false, if_false, kindSamples, kindMark, ← kindKnown_iff, Bool.not_eq_true', Bool.not_eq_true]

/-- The tests of R154 behind the check word. -/
theorem returnVerdict_receivedAs {ws : List Word} (h : crc ws = 0) :
    returnVerdict (receivedAs ws) =
      if ¬(1 ≤ hdrKind ws ∧ hdrKind ws ≤ 6) then .damaged
      else if hdrKind ws ≠ 3 ∧ hdrKind ws ≠ 6 then .misdirected
      else if lengthDisagrees ws ws.length then .damaged
      else returnFields (ws.take 517) := by
  obtain ⟨kind, _, _, _, _⟩ := header_kept ws
  unfold returnVerdict
  simp only [checkRegister_receivedAs, keptWords_receivedAs, length_receivedAs, lengthDisagrees_kept, kind, h, ne_eq,
    not_true_eq_false, if_false, kindControl, kindPace, ← kindKnown_iff, Bool.not_eq_true', Bool.not_eq_true]

/-! ### The payload -/

theorem payloadOf_getD {ws : List Word} {i : Nat} (h : i < hdrCount ws) : (payloadOf ws).getD i 0 = ws.getD (4 + i) 0 := by
  simp only [payloadOf, List.getD_eq_getElem?_getD, List.getElem?_take_of_lt h, List.getElem?_drop]

theorem MarkKind.ofCode_outside {n : Nat} (h : n < 1 ∨ 5 < n) : MarkKind.ofCode n = none := by
  unfold MarkKind.ofCode
  split <;> first | omega | rfl

/-- Test 6 of R134 on the lane of a parcel, and on the mark kind and the offset of a MARK parcel. -/
theorem intakeFields_outside {ws : List Word}
    (h : 15 < hdrLane ws
      ∨ (hdrKind ws ≠ 1 ∧ hdrCount ws = 3
        ∧ ((ws.getD 4 0).toNat < 1 ∨ 5 < (ws.getD 4 0).toNat ∨ 511 < (ws.getD 5 0).toNat))) :
    intakeFields ws = .damaged 5 := by
  unfold intakeFields
  dsimp only
  split
  case isFalse => rfl
  case isTrue lane =>
    obtain above | ⟨mark, count, outside⟩ := h
    · omega
    · have mark : hdrKind ws ≠ kindSamples := mark
      rw [if_neg mark, payloadOf_getD (by omega), payloadOf_getD (by omega)]
      obtain low | high | offset := outside
      · rw [MarkKind.ofCode_outside (.inl low)]
      · rw [MarkKind.ofCode_outside (.inr high)]
      · split
        · exact if_pos offset
        · rfl

/-! ### INTAKE_ARRIVAL -/

theorem exec_intakeArrival {s : State} {rx : List RxWord} (running : s.resetLine = false) (up : s.intake.link = .up)
    (parcel : isParcel rx = true) : exec (.intakeArrival rx) s = .next (s.intakeArrival rx) := by
  change whileRunning _ s = _
  rw [whileRunning_of_deasserted running, if_pos ⟨up, parcel⟩]

theorem State.intakeArrival_halted {s : State} (halted : s.intake.port = .halted) (rx : List RxWord) :
    s.intakeArrival rx = { s with intake := (s.intake.bump .arrived).dropHalted } := if_pos halted

theorem State.intakeArrival_accepting {s : State} (accepting : s.intake.port = .accepting) (rx : List RxWord) :
    s.intakeArrival rx = State.acceptArrival { s with intake := s.intake.bump .arrived } (intakeVerdict rx) := by
  refine if_neg fun c => ?_
  have : s.intake.port = .halted := c
  rw [accepting] at this
  contradiction

/-- A damaged parcel is counted and noticed, and halts the port where halt on damage is on (R134, R135). -/
theorem State.damagedArrival_eq (s : State) (d : Nat) :
    s.damagedArrival d =
      if s.intake.haltOnDamage = true then
        { State.issue
            (State.issue { s with intake := s.intake.bump .damaged } (noticeOf .parcelDamaged none 0 d))
            (noticeOf .intakeHalted none 0 0) with
          intake :=
            IntakePort.paced
              (IntakePort.bump { s.intake.bump .damaged with port := .halted, drops := 0 } .halts) }
      else State.issue { s with intake := s.intake.bump .damaged } (noticeOf .parcelDamaged none 0 d) := by
  unfold State.damagedArrival State.haltIntake
  dsimp only
  rw [IntakePort.repace_eq]
  rfl

/-- Settles O20: the verdict decides what an arrival does, and each test is a row of it. -/
theorem arrivingParcelsAreTested : Obligations.ArrivingParcelsAreTested := by
  rintro s rx p running up parcel rfl
  rw [exec_intakeArrival running up parcel]
  refine ⟨fun halted => by rw [State.intakeArrival_halted halted]; rfl, ?_⟩
  intro damagedAs damaged accepting
  rw [State.intakeArrival_accepting accepting]
  have fails : ∀ d, intakeVerdict rx = .damaged d →
      (.next (State.acceptArrival { s with intake := s.intake.bump .arrived } (intakeVerdict rx))
        : Host.Outcome State Fault Refusal) = .next (damagedAs d) := by
    intro d verdict
    rw [verdict, damaged]
    exact congrArg Host.Outcome.next (State.damagedArrival_eq _ d)
  refine ⟨fun error => fails 1 (verdicts_of_symbolError error).1, ?_⟩
  rintro ws kind lane count rfl rfl rfl rfl
  have tests := @intakeVerdict_receivedAs ws
  refine ⟨fun wrong => fails 1 (verdicts_of_crc wrong).1, fun good outside => fails 2 ?_, fun good low high => ?_,
    fun good kinds wrong => fails 3 ?_, fun good kind length zero => fails 4 ?_, fun good length short wrong => fails 5 ?_⟩
  · rw [tests good, if_pos]
    change ¬(1 ≤ (ws.getD 0 0).toNat / 256 ∧ (ws.getD 0 0).toNat / 256 ≤ 6)
    omega
  · have misdirected : intakeVerdict (receivedAs ws) = .misdirected := by
      rw [tests good, if_neg, if_pos]
      · change (ws.getD 0 0).toNat / 256 ≠ 1 ∧ (ws.getD 0 0).toNat / 256 ≠ 2
        omega
      · change ¬¬(1 ≤ (ws.getD 0 0).toNat / 256 ∧ (ws.getD 0 0).toNat / 256 ≤ 6)
        omega
    rw [misdirected]
    rfl
  · have kinds : hdrKind ws = 1 ∨ hdrKind ws = 2 := kinds
    have disagrees : lengthDisagrees ws ws.length = true := by
      rw [lengthDisagrees_iff]
      obtain length | long | mark := wrong
      · exact .inl length
      · exact .inr (.inl long)
      · exact .inr (.inr (.inl mark))
    rw [tests good, if_neg (by omega), if_neg (by omega), if_pos disagrees]
  · have kind : hdrKind ws = 1 := kind
    have zero : hdrCount ws = 0 := zero
    have agrees : ¬lengthDisagrees ws ws.length = true := by
      rw [lengthDisagrees_iff]
      omega
    rw [tests good, if_neg (by omega), if_neg (by omega), if_neg agrees, if_pos ⟨kind, zero⟩]
  · change ((hdrKind ws = 1 ∧ hdrCount ws ≠ 0 ∧ 15 < hdrLane ws) ∨ (hdrKind ws = 2 ∧ hdrCount ws = 3 ∧ (15 < hdrLane ws ∨ _)))
      at wrong
    have length : ws.length = 5 + hdrCount ws := length
    have agrees : ¬lengthDisagrees ws ws.length = true := by
      rw [lengthDisagrees_iff]
      omega
    rw [tests good, if_neg (by omega), if_neg (by omega), if_neg agrees, if_neg (by omega), List.take_of_length_le short]
    refine intakeFields_outside ?_
    omega

/-- A parcel admitted into the intake queue (R137). -/
theorem IntakePort.admitted_eq (p : IntakePort) (x : InParcel) :
    p.admitted x =
      IntakePort.paced
        { p with
          queue := p.queue ++ [x]
          headWaiting := if p.queue = [] then false else p.headWaiting
          counters := bumpAt p.counters 1 1 } := by
  unfold IntakePort.admitted
  rw [IntakePort.repace_eq]
  simp [IntakePort.bump, IntakeCounter.place]

/-- The starvation timer reloaded, as one record (R25). -/
theorem Lane.reloadTimer_eq (ln : Lane) :
    ln.reloadTimer =
      { ln with
        timer :=
          { remaining := ln.config.starvationTime
            counting := decide (ln.state = .running false ∧ ln.config.starvationTime ≠ 0) } } := by
  unfold Lane.reloadTimer
  simp

/-- Settles O21: a well-formed parcel joins the queue or meets a full one. -/
theorem wellFormedParcelsAreAdmittedOrDropped : Obligations.WellFormedParcelsAreAdmittedOrDropped := by
  rintro s rx x p running up parcel accepting good rfl
  rw [exec_intakeArrival running up parcel, State.intakeArrival_accepting accepting, good]
  constructor
  case left =>
    intro room
    have admitted : State.acceptArrival { s with intake := s.intake.bump .arrived } (.good x)
        = State.admitParcel { s with intake := s.intake.bump .arrived } x := if_pos room
    refine ⟨_, congrArg Host.Outcome.next admitted, ?_⟩
    unfold State.admitParcel
    rw [IntakePort.admitted_eq]
    cases x with
    | samples l n vs =>
      refine ⟨rfl, rfl, ?_, fun other => absurd rfl (other l n vs)⟩
      rintro _ _ _ ⟨⟩
      rw [← Lane.reloadTimer_eq]
      rfl
    | mark l k n o v => exact ⟨rfl, rfl, fun _ _ _ c => by simp at c, fun _ => rfl⟩
  case right =>
    intro full
    have dropped : State.acceptArrival { s with intake := s.intake.bump .arrived } (.good x)
        = State.overrunDrop { s with intake := s.intake.bump .arrived } x := if_neg (Nat.not_lt.2 full)
    rw [dropped]
    unfold State.overrunDrop
    dsimp only
    split
    case isTrue noticed =>
      have noticed : s.intake.overrunNoticed = true := noticed
      rw [if_pos noticed, ← noticed]
      rfl
    case isFalse first =>
      have first : ¬s.intake.overrunNoticed = true := first
      rw [if_neg first]
      cases x <;> rfl

/-! ### RETURN_ARRIVAL -/

theorem exec_returnArrival {s : State} {rx : List RxWord} (running : s.resetLine = false) (up : s.delivery.link = .up)
    (parcel : isParcel rx = true) :
    exec (.returnArrival rx) s
      = .next (State.acceptReturn { s with delivery := s.delivery.bump .arrivals } (returnVerdict rx)) := by
  change whileRunning _ s = _
  rw [whileRunning_of_deasserted running, if_pos ⟨up, parcel⟩]
  rfl

/-- Test 5 of R154 on a PACE parcel. -/
theorem returnFields_pace {ws : List Word} (kind : hdrKind ws = 6) (count : hdrCount ws = 1) :
    (1 < (ws.getD 4 0).toNat → returnFields ws = .damaged)
      ∧ ∀ x : Pace, (ws.getD 4 0).toNat = x.code → returnFields ws = .pace x := by
  have field : (payloadOf ws).getD 0 0 = ws.getD 4 0 := payloadOf_getD (by omega)
  have kind : hdrKind ws = kindPace := kind
  unfold returnFields
  dsimp only
  rw [if_pos kind, field]
  refine ⟨fun above => ?_, fun x code => ?_⟩
  · rw [if_neg, if_neg]
    · intro c
      rw [c] at above
      contradiction
    · intro c
      rw [c] at above
      contradiction
  · cases x with
    | stop => exact if_pos (BitVec.eq_of_toNat_eq code)
    | go =>
      have one : ws.getD 4 0 = 1 := BitVec.eq_of_toNat_eq code
      rw [one]
      rfl

/-- Test 5 of R154 on a CONTROL parcel. -/
theorem returnFields_control {ws : List Word} (kind : hdrKind ws = 3) :
    returnFields ws =
      if 257 < hdrCount ws then .damaged
      else .control { tag := ws.getD 2 0, payload := (ws.drop 4).take (hdrCount ws) } :=
  if_neg (by rw [kind]; decide)

/-- A CONTROL parcel at the control queue (R165). -/
theorem ControlUnit.admitted_eq (u : ControlUnit) (p : ControlParcel) :
    u.admitted p =
      if u.queue.length < 4 then
        { u with queue := u.queue ++ [p], counters := bumpAt (bumpAt u.counters 0 1) 1 1 }
      else { u with lost := true, counters := bumpAt (bumpAt u.counters 0 1) 2 1 } := rfl

/-- Settles O33: the verdict decides what a return parcel does, and each test is a row of it. -/
theorem returnParcelsAreTested : Obligations.ReturnParcelsAreTested := by
  rintro s rx d damaged running up parcel rfl rfl
  rw [exec_returnArrival running up parcel]
  have fails : returnVerdict rx = .damaged →
      (.next (State.acceptReturn { s with delivery := s.delivery.bump .arrivals } (returnVerdict rx))
        : Host.Outcome State Fault Refusal)
          = .next { s with delivery := (s.delivery.bump .arrivals).bump .damaged, control := s.control.lostDamagedParcel } :=
    fun verdict => by
      rw [verdict]
      rfl
  refine ⟨fun error => fails (verdicts_of_symbolError error).2, ?_⟩
  rintro ws kind count rfl rfl rfl
  have tests := @returnVerdict_receivedAs ws
  have agrees_of : ws.length = 5 + hdrCount ws → ws.length ≤ 517 → hdrKind ws ≠ 2 → (hdrKind ws = 6 → hdrCount ws = 1) →
      ¬lengthDisagrees ws ws.length = true := by
    intro length short mark pace
    rw [lengthDisagrees_iff]
    omega
  refine ⟨fun wrong => fails (verdicts_of_crc wrong).2, fun good outside => fails ?_, fun good kinds => ?_,
    fun good kinds wrong => fails ?_, fun good kind length count => ?_, fun good kind length => ?_⟩
  · rw [tests good, if_pos]
    change ¬(1 ≤ (ws.getD 0 0).toNat / 256 ∧ (ws.getD 0 0).toNat / 256 ≤ 6)
    omega
  · have kinds : hdrKind ws = 1 ∨ hdrKind ws = 2 ∨ hdrKind ws = 4 ∨ hdrKind ws = 5 := kinds
    rw [tests good, if_neg (by omega), if_pos (by omega)]
    rfl
  · have kinds : hdrKind ws = 3 ∨ hdrKind ws = 6 := kinds
    have disagrees : lengthDisagrees ws ws.length = true := by
      rw [lengthDisagrees_iff]
      obtain length | long | pace := wrong
      · exact .inl length
      · exact .inr (.inl long)
      · exact .inr (.inr (.inr pace))
    rw [tests good, if_neg (by omega), if_neg (by omega), if_pos disagrees]
  · have kind : hdrKind ws = 6 := kind
    have count : hdrCount ws = 1 := count
    have verdict : returnVerdict (receivedAs ws) = returnFields ws := by
      rw [tests good, if_neg (by omega), if_neg (by omega), if_neg (agrees_of (by omega) (by omega) (by omega) (by omega)),
        List.take_of_length_le (by omega)]
    obtain ⟨above, paces⟩ := returnFields_pace kind count
    refine ⟨fun high => fails (verdict.trans (above high)), fun x code => ?_⟩
    rw [verdict, paces x code]
    change Host.Outcome.next (State.paceReceived _ x) = _
    unfold State.paceReceived State.freshPace
    rw [deliveryPaceOf_eq]
    rfl
  · have kind : hdrKind ws = 3 := kind
    have length : ws.length = 5 + hdrCount ws := length
    have verdict : ws.length ≤ 517 → returnVerdict (receivedAs ws) = returnFields ws := fun short => by
      rw [tests good, if_neg (by omega), if_neg (by omega), if_neg (agrees_of length short (by omega) (by omega)),
        List.take_of_length_le short]
    rw [returnFields_control kind] at verdict
    constructor
    · intro high
      have high : 257 < hdrCount ws := high
      refine fails ?_
      by_cases short : ws.length ≤ 517
      · rw [verdict short, if_pos high]
      · have disagrees : lengthDisagrees ws ws.length = true := by
          rw [lengthDisagrees_iff]
          omega
        rw [tests good, if_neg (by omega), if_neg (by omega), if_pos disagrees]
    · intro low
      have low : hdrCount ws ≤ 257 := low
      rw [verdict (by omega), if_neg (by omega)]
      change Host.Outcome.next { s with delivery := _, control := ControlUnit.admitted _ _ } = _
      rw [ControlUnit.admitted_eq]
      rfl

/-! ### The layout of R176, read back -/

/-- Fed with itself a register shifts out what it is fed, bit by bit (R175). -/
theorem crcWord_self (r : Word) : crcWord r r = 0 := by
  have shifted : ∀ n ≤ 16, (List.range n).foldl (fun q i => crcBit q (r.getMsbD i)) r = r <<< n := by
    intro n
    induction n with
    | zero => intro _; simp
    | succ n ih =>
      intro bound
      rw [List.range_succ, List.foldl_append, ih (by omega)]
      simp [crcBit, BitVec.msb_shiftLeft, BitVec.shiftLeft_add]
  rw [crcWord, shifted 16 (Nat.le_refl _)]
  exact BitVec.shiftLeft_eq_zero (Nat.le_refl _)

theorem crc_checked (ws : List Word) : crc (ws ++ [crc ws]) = 0 := by
  rw [crc_append, crcWord_self]

theorem length_parcelWords (kind lane flags : Nat) (n : SeqNum) (pay : List Word) :
    (parcelWords kind lane flags n pay).length = 5 + pay.length := by
  simp only [parcelWords, List.length_append, List.length_cons, List.length_nil]
  omega

theorem crc_parcelWords (kind lane flags : Nat) (n : SeqNum) (pay : List Word) :
    crc (parcelWords kind lane flags n pay) = 0 := crc_checked _

theorem hdrKind_parcelWords {kind lane : Nat} (h : kind < 256) (k : lane < 256) (flags : Nat) (n : SeqNum) (pay : List Word) :
    hdrKind (parcelWords kind lane flags n pay) = kind := by
  change (natWord (kind * 256 + lane)).toNat / 256 = kind
  rw [natWord, toNat_ofNat_word (by omega)]
  omega

theorem hdrLane_parcelWords {kind lane : Nat} (h : kind < 256) (k : lane < 256) (flags : Nat) (n : SeqNum) (pay : List Word) :
    hdrLane (parcelWords kind lane flags n pay) = lane := by
  change (natWord (kind * 256 + lane)).toNat % 256 = lane
  rw [natWord, toNat_ofNat_word (by omega)]
  omega

theorem hdrSeq_parcelWords (kind lane : Nat) {flags : Nat} (h : flags < 256) (n : SeqNum) (pay : List Word) :
    hdrSeq (parcelWords kind lane flags n pay) = n := by
  have bound := n.isLt
  change BitVec.ofNat 24 ((natWord (flags * 256 + n.toNat / 65536)).toNat % 256 * 65536 + (n.extractLsb' 0 16).toNat) = n
  rw [natWord, toNat_ofNat_word (by omega), BitVec.extractLsb'_toNat]
  refine BitVec.eq_of_toNat_eq ?_
  rw [BitVec.toNat_ofNat]
  omega

theorem hdrTag_parcelWords (kind lane flags : Nat) (tag : Word) (pay : List Word) :
    hdrTag (parcelWords kind lane flags (tag.setWidth 24) pay) = tag := by
  change (tag.setWidth 24).extractLsb' 0 16 = tag
  refine BitVec.eq_of_toNat_eq ?_
  have bound := tag.isLt
  rw [BitVec.extractLsb'_toNat, BitVec.toNat_setWidth]
  omega

theorem hdrCount_parcelWords (kind lane flags : Nat) (n : SeqNum) {pay : List Word} (h : pay.length < 65536) :
    hdrCount (parcelWords kind lane flags n pay) = pay.length := by
  change (natWord pay.length).toNat = pay.length
  exact toNat_ofNat_word (by omega)

theorem payloadOf_parcelWords (kind lane flags : Nat) (n : SeqNum) {pay : List Word} (h : pay.length < 65536) :
    payloadOf (parcelWords kind lane flags n pay) = pay := by
  unfold payloadOf
  rw [hdrCount_parcelWords kind lane flags n h]
  exact List.take_left' rfl

/-- A parcel laid out with a payload that fits it agrees with its length. -/
theorem parcelWords_agree {kind lane flags : Nat} (n : SeqNum) {pay : List Word} (known : kind < 256) (code : lane < 256)
    (h : pay.length ≤ 512) (mark : kind = 2 → pay.length = 3) (pace : kind = 6 → pay.length = 1) :
    ¬lengthDisagrees (parcelWords kind lane flags n pay) (parcelWords kind lane flags n pay).length = true := by
  rw [lengthDisagrees_iff, hdrKind_parcelWords known code, hdrCount_parcelWords _ _ _ _ (by omega), length_parcelWords]
  omega

theorem receivedAs_parcelWords (kind lane flags : Nat) (n : SeqNum) {pay : List Word} (h : pay.length ≤ 512) :
    (parcelWords kind lane flags n pay).map .word = receivedAs (parcelWords kind lane flags n pay)
      ∧ (parcelWords kind lane flags n pay).take 517 = parcelWords kind lane flags n pay := by
  have short : (parcelWords kind lane flags n pay).length ≤ 517 := by
    rw [length_parcelWords]
    omega
  exact ⟨(receivedAs_short short).symm, List.take_of_length_le short⟩

/-- A SAMPLES or MARK parcel laid out as R176 says is judged by its fields alone. -/
theorem intakeVerdict_parcelWords {kind flags : Nat} {pay : List Word} (l : LaneId) (n : SeqNum)
    (h : (kind = 1 ∧ 1 ≤ pay.length ∧ pay.length ≤ 512) ∨ (kind = 2 ∧ pay.length = 3)) :
    intakeVerdict ((parcelWords kind l.val flags n pay).map .word) = intakeFields (parcelWords kind l.val flags n pay) := by
  have code := l.isLt
  obtain ⟨received, whole⟩ := receivedAs_parcelWords kind l.val flags n (pay := pay) (by omega)
  rw [received, intakeVerdict_receivedAs (crc_parcelWords ..), whole,
    if_neg (parcelWords_agree n (by omega) (by omega) (by omega) (by omega) (by omega)),
    hdrKind_parcelWords (by omega) (by omega), hdrCount_parcelWords _ _ _ _ (by omega), if_neg (by omega),
    if_neg (by omega), if_neg (by omega)]

/-- A CONTROL or PACE parcel laid out as R176 says is judged by its fields alone. -/
theorem returnVerdict_parcelWords {kind flags : Nat} {pay : List Word} (n : SeqNum)
    (h : (kind = 3 ∧ pay.length ≤ 512) ∨ (kind = 6 ∧ pay.length = 1)) :
    returnVerdict ((parcelWords kind 0 flags n pay).map .word) = returnFields (parcelWords kind 0 flags n pay) := by
  obtain ⟨received, whole⟩ := receivedAs_parcelWords kind 0 flags n (pay := pay) (by omega)
  rw [received, returnVerdict_receivedAs (crc_parcelWords ..), whole,
    if_neg (parcelWords_agree n (by omega) (by omega) (by omega) (by omega) (by omega)),
    hdrKind_parcelWords (by omega) (by omega), if_neg (by omega), if_neg (by omega)]

theorem intakeFields_samples {l : LaneId} {f : Nat} (n : SeqNum) {vs : List Sample} (flags : f ≤ 255)
    (short : vs.length ≤ 512) : intakeFields (parcelWords 1 l.val f n vs) = .good (.samples l n vs) := by
  have code := l.isLt
  unfold intakeFields
  simp only [hdrLane_parcelWords (show 1 < 256 by omega) (show l.val < 256 by omega), code, dite_true,
    hdrKind_parcelWords (show 1 < 256 by omega) (show l.val < 256 by omega), hdrSeq_parcelWords 1 l.val (Nat.lt_succ_of_le flags),
    hdrCount_parcelWords 1 l.val f n (show vs.length < 65536 by omega),
    payloadOf_parcelWords 1 l.val f n (show vs.length < 65536 by omega), kindSamples, if_true]
  exact if_neg (by omega)

theorem MarkKind.ofCode_code (k : MarkKind) : MarkKind.ofCode (BitVec.ofNat 16 k.code).toNat = some k := by
  cases k <;> rfl

theorem intakeFields_mark {l : LaneId} (k : MarkKind) (n : SeqNum) {o : Nat} (v : Word) (offset : o ≤ 511) :
    intakeFields (parcelWords 2 l.val 0 n [BitVec.ofNat 16 k.code, BitVec.ofNat 16 o, v]) = .good (.mark l k n o v) := by
  have code := l.isLt
  have read : (BitVec.ofNat 16 o).toNat = o := toNat_ofNat_word (by omega)
  unfold intakeFields
  simp only [hdrLane_parcelWords (show 2 < 256 by omega) (show l.val < 256 by omega), code, dite_true,
    hdrKind_parcelWords (show 2 < 256 by omega) (show l.val < 256 by omega), hdrSeq_parcelWords 2 l.val (show 0 < 256 by omega),
    payloadOf_parcelWords 2 l.val 0 n (pay := [BitVec.ofNat 16 k.code, BitVec.ofNat 16 o, v])
      (show 3 < 65536 by omega), kindSamples,
    List.getD_cons_zero, List.getD_cons_succ, MarkKind.ofCode_code, read]
  rw [if_neg (by omega)]
  exact if_neg (by omega)

/-- Settles O47: the fields of a parcel laid out as R176 says are those it was laid out from. -/
theorem parcelsReadBackAsWritten : Obligations.ParcelsReadBackAsWritten := by
  refine ⟨crc_checked, fun l f n vs flags some short => ?_, fun l k n o v offset => ?_, fun tag pay short => ?_, fun p => ?_⟩
  · rw [intakeVerdict_parcelWords l n (.inl ⟨rfl, some, short⟩)]
    exact intakeFields_samples n flags short
  · rw [intakeVerdict_parcelWords l n (.inr ⟨rfl, rfl⟩)]
    exact intakeFields_mark k n v offset
  · have kind := hdrKind_parcelWords (kind := 3) (lane := 0) (by omega) (by omega) 0 (tag.setWidth 24) pay
    have count := hdrCount_parcelWords 3 0 0 (tag.setWidth 24) (pay := pay) (by omega)
    rw [returnVerdict_parcelWords _ (.inl ⟨rfl, by omega⟩), returnFields_control kind, count, if_neg (by omega)]
    have payload := payloadOf_parcelWords 3 0 0 (tag.setWidth 24) (pay := pay) (by omega)
    rw [payloadOf, count] at payload
    rw [payload]
    exact congrArg (fun t => ReturnVerdict.control { tag := t, payload := pay }) (hdrTag_parcelWords 3 0 0 tag pay)
  · have kind := hdrKind_parcelWords (kind := 6) (lane := 0) (by omega) (by omega) 0 0 [natWord p.code]
    have count := hdrCount_parcelWords 6 0 0 0 (pay := [natWord p.code]) (show 1 < 65536 by omega)
    change returnVerdict ((parcelWords 6 0 0 0 [natWord p.code]).map .word) = _
    rw [returnVerdict_parcelWords _ (.inr ⟨rfl, rfl⟩)]
    refine (returnFields_pace kind count).2 p ?_
    cases p <;> rfl

end Sys2Proof.Machine
end

section
/-! The arithmetic of the gate, of repair and of the pattern unit (R83, R107, R108, R116, R120 to R126), the notice batch
(R156 to R158) and the symbols of the pairs (R171, R174). -/

namespace Sys2Proof.Machine

/-! ### Scaling by a fraction of at most one -/

/-- The k-th of n equal parts of a distance lies between 0 and the distance, truncated toward zero or not. -/
theorem tdiv_fraction (d : Int) {k n : Nat} (h : k ≤ n) (pos : 0 < n) :
    (0 ≤ d → 0 ≤ Int.tdiv (d * k) n ∧ Int.tdiv (d * k) n ≤ d) ∧ (d ≤ 0 → d ≤ Int.tdiv (d * k) n ∧ Int.tdiv (d * k) n ≤ 0) := by
  have up : ∀ e : Int, 0 ≤ e → 0 ≤ Int.tdiv (e * k) n ∧ Int.tdiv (e * k) n ≤ e := by
    intro e he
    have product : 0 ≤ e * (k : Int) := mul_nonneg he (Int.natCast_nonneg k)
    rw [Int.tdiv_eq_ediv_of_nonneg product]
    have room : e * (k : Int) ≤ e * (n : Int) := mul_le_mul_of_nonneg_left (by exact_mod_cast h) he
    exact ⟨Int.ediv_nonneg product (by omega), Int.ediv_le_of_le_mul (by omega) room⟩
  refine ⟨up d, fun low => ?_⟩
  have mirrored := up (-d) (by omega)
  rw [Int.neg_mul, Int.neg_tdiv] at mirrored
  omega

theorem toInt_ofInt_sample {x : Int} (low : -32768 ≤ x) (high : x ≤ 32767) : (BitVec.ofInt 16 x).toInt = x :=
  BitVec.toInt_ofInt_eq_self (by decide) (by simpa using low) (by simpa using Int.lt_add_one_of_le high)

theorem sample_range (v : Sample) : -32768 ≤ v.toInt ∧ v.toInt ≤ 32767 := by
  have low := v.le_toInt
  have high := v.toInt_lt
  norm_num at low high
  omega

/-- A sample scaled by a gain of at most 256 keeps its sign and does not grow (R108). -/
theorem scaleSample_toInt {g : Nat} (v : Sample) (h : g ≤ 256) :
    (scaleSample g v).toInt = Int.tdiv (v.toInt * (g : Int)) 256
      ∧ (scaleSample g v).toInt.natAbs ≤ v.toInt.natAbs := by
  obtain ⟨low, high⟩ := sample_range v
  obtain ⟨up, down⟩ := tdiv_fraction v.toInt h (by omega)
  rw [show ((256 : Nat) : Int) = 256 from rfl] at up down
  have value : (scaleSample g v).toInt = Int.tdiv (v.toInt * (g : Int)) 256 := by
    unfold scaleSample truncDiv
    refine toInt_ofInt_sample ?_ ?_ <;> omega
  refine ⟨value, ?_⟩
  rw [value]
  omega

theorem scaleSample_full (v : Sample) : scaleSample 256 v = v := by
  unfold scaleSample truncDiv
  rw [show ((256 : Nat) : Int) = 256 from rfl, Int.mul_tdiv_cancel _ (by decide)]
  exact BitVec.ofInt_toInt

/-- Settles O43: the table by the gate's states, and the scaling by its sign. -/
theorem gateFollowsItsTableAndScalesDown : Obligations.GateFollowsItsTableAndScalesDown := by
  refine ⟨fun o c h p order => ⟨?_, fun i => rfl, rfl⟩, fun g v gain => ?_⟩
  · rintro g (rfl | ⟨k, rfl⟩)
    all_goals
      constructor
      · intro loud
        simp only [Gate.after]
        split
        · rfl
        · rw [if_neg (by omega)]
      · intro quiet low
        simp only [Gate.after]
        rw [if_neg (by omega), if_pos low]
        simp [Gate.holdCount]
  · obtain ⟨value, small⟩ := scaleSample_toInt v gain
    exact ⟨value, small, scaleSample_full v⟩

/-! ### The pattern sequences and the generator -/

/-- The step of R116, worked out. -/
theorem shiftStep_toNat {w : Word} (h : w.toNat ≤ 32767) :
    (shiftStep w).toNat =
      (2 * w.toNat) % 32768 + (if w.toNat / 16384 = w.toNat / 8192 % 2 then 0 else 1) := by
  unfold shiftStep
  dsimp only
  split <;> split <;> rw [toNat_ofNat_word (by omega)] <;> omega

theorem alterWord_eq (w : Word) :
    alterWord w = BitVec.ofNat 16 (if w.toNat % 2 = 0 then w.toNat + 1 else w.toNat - 1) := by
  have bound := w.isLt
  refine BitVec.eq_of_toNat_eq ?_
  rw [toNat_ofNat_word (by split <;> omega), alterWord, BitVec.toNat_xor]
  split
  case isTrue even => exact Nat.xor_one_of_even (Nat.even_iff.2 even)
  case isFalse odd => exact Nat.xor_one_of_odd (Nat.odd_iff.2 (by omega))

theorem Generator.alters_iff (g : Generator) :
    g.alters = true ↔ g.single = true ∨ (g.period ≠ 0 ∧ g.countdown = 1) := by
  simp [Generator.alters]

/-- A pending single error is spent on the word that is handed out, and a countdown at 1 or below is loaded again (R122). -/
theorem Generator.advance_eq (g : Generator) :
    g.advance =
      { g with
        next := g.setting.following g.next
        single := false
        countdown := if g.period = 0 then g.countdown else if g.countdown ≤ 1 then g.period else g.countdown - 1 } := by
  have spent : (g.single && !g.alters) = false := by
    cases single : g.single <;> simp [Generator.alters, single]
  have last : g.countdown - 1 = 0 ↔ g.countdown ≤ 1 := by omega
  unfold Generator.advance
  simp only [spent, last]

/-- Settles O44: the step by the two bits that it feeds back, the generator field by field. -/
theorem patternStepsAndAlterations : Obligations.PatternStepsAndAlterations := by
  refine ⟨fun w low high => ?_, fun g => ⟨?_, ?_⟩⟩
  · have step := shiftStep_toNat high
    refine ⟨?_, step, fun u low' high' same => BitVec.eq_of_toNat_eq ?_⟩
    · rw [step]
      split <;> omega
    · have step' := shiftStep_toNat high'
      rw [same, step] at step'
      split at step' <;> split at step' <;> omega
  · unfold Generator.given
    rw [alterWord_eq]
    simp only [Generator.alters_iff]
  · exact g.advance_eq

/-! ### The checker, word by word -/

theorem PatternSetting.seedState_eq (p : PatternSetting) (w : Word) :
    p.seedState w =
      match p.kind with
      | .shift15 => if 1 ≤ w.toNat ∧ w.toNat ≤ 32767 then .verify (shiftStep w) 0 else .search
      | .constant => if w = p.first then .verify p.first 0 else .search
      | .alternate =>
        if w = p.first then .verify p.second 0
        else if w = p.second then .verify p.first 0
        else .search := by
  unfold PatternSetting.seedState PatternSetting.seed?
  cases p.kind
  case shift15 => by_cases seed : 1 ≤ w.toNat ∧ w.toNat ≤ 32767 <;> simp [seed]
  case constant => by_cases first : w = p.first <;> simp [first]
  case alternate =>
    by_cases first : w = p.first
    · simp [first]
    · simp only [first, if_false]
      by_cases second : w = p.second <;> simp only [second, if_true, if_false]

/-- A counter that is at its limit stays there, and one below it reaches it only from the value before it. -/
theorem satBump_limit {w : Nat} (c : BitVec w) (pos : 0 < w) :
    (c = BitVec.allOnes w → satBump c 1 = c) ∧ (c ≠ BitVec.allOnes w → (satBump c 1 = BitVec.allOnes w ↔ c.toNat + 2 = 2 ^ w)) := by
  have bound := c.isLt
  have room : 2 ≤ 2 ^ w := Nat.le_self_pow (by omega) 2
  have limit : c = BitVec.allOnes w ↔ c.toNat + 1 = 2 ^ w := by
    rw [← BitVec.toNat_inj, BitVec.toNat_allOnes]
    omega
  constructor
  · intro full
    unfold satBump
    rw [if_neg (by have := limit.1 full; omega), full]
  · intro below
    have below : c.toNat + 1 < 2 ^ w := by
      have := mt limit.2 below
      omega
    unfold satBump
    rw [if_pos below, ← BitVec.toNat_inj, BitVec.toNat_add, BitVec.toNat_allOnes, BitVec.toNat_ofNat,
      Nat.mod_eq_of_lt (show 1 < 2 ^ w by omega), Nat.mod_eq_of_lt below]
    omega

/-- A word counted in LOCKED (R126). -/
theorem State.countCheckedWord_record (s : State) :
    s.countCheckedWord =
      let t : State :=
        { s with
          checker :=
            { s.checker with
              wordCount := satBump s.checker.wordCount 1
              wordSaturated := s.checker.wordSaturated || decide (s.checker.wordCount.toNat = 4294967294) } }
      if s.checker.wordCount.toNat = 4294967294 then t.issue (noticeOf .checkSaturated s.checker.lane 0 1) else t := by
  obtain ⟨stays, reaches⟩ := satBump_limit s.checker.wordCount (by decide)
  unfold State.countCheckedWord
  dsimp only
  split
  case isTrue full =>
    have other : ¬s.checker.wordCount.toNat = 4294967294 := by
      rw [full]
      decide
    simp [other, stays full]
  case isFalse below =>
    have reaches := reaches below
    split
    case isTrue limit =>
      have before : s.checker.wordCount.toNat = 4294967294 := by
        have := reaches.1 limit
        omega
      simp only [before, if_true, decide_true, Bool.or_true]
      rfl
    case isFalse under =>
      have other : ¬s.checker.wordCount.toNat = 4294967294 := fun c => under (reaches.2 (by omega))
      simp [other]

/-- A mismatch counted in LOCKED (R126). -/
theorem State.countCheckedError_record (s : State) :
    s.countCheckedError =
      let t : State :=
        { s with
          checker :=
            { s.checker with
              errorCount := satBump s.checker.errorCount 1
              errorSaturated := s.checker.errorSaturated || decide (s.checker.errorCount.toNat = 16777214) } }
      if s.checker.errorCount.toNat = 16777214 then t.issue (noticeOf .checkSaturated s.checker.lane 0 2) else t := by
  obtain ⟨stays, reaches⟩ := satBump_limit s.checker.errorCount (by decide)
  unfold State.countCheckedError
  dsimp only
  split
  case isTrue full =>
    have other : ¬s.checker.errorCount.toNat = 16777214 := by
      rw [full]
      decide
    simp [other, stays full]
  case isFalse below =>
    have reaches := reaches below
    split
    case isTrue limit =>
      have before : s.checker.errorCount.toNat = 16777214 := by
        have := reaches.1 limit
        omega
      simp only [before, if_true, decide_true, Bool.or_true]
      rfl
    case isFalse under =>
      have other : ¬s.checker.errorCount.toNat = 16777214 := fun c => under (reaches.2 (by omega))
      simp [other]

theorem historyJoin_eq (h : List CheckResult) (r : CheckResult) : historyJoin h r = (h ++ [r]).drop (h.length - 47) := by
  unfold historyJoin Config.historySize
  congr 1

/-- A word compared in LOCKED, the checker's new state being st: the two counts, each with its notice (R125, R126). -/
def State.compared (s : State) (w e : Word) (st : CheckerState) : State :=
  let c := s.checker
  let t : State :=
    { s with
      checker :=
        { c with
          state := st
          wordCount := satBump c.wordCount 1
          errorCount := if w = e then c.errorCount else satBump c.errorCount 1
          wordSaturated := c.wordSaturated || decide (c.wordCount.toNat = 4294967294)
          errorSaturated := c.errorSaturated || (decide (w ≠ e) && decide (c.errorCount.toNat = 16777214)) } }
  let t1 : State := if c.wordCount.toNat = 4294967294 then t.issue (noticeOf .checkSaturated c.lane 0 1) else t
  if w ≠ e ∧ c.errorCount.toNat = 16777214 then t1.issue (noticeOf .checkSaturated c.lane 0 2) else t1

/-- Lock lost after a comparison (R125): CHECK_LOST behind the notices of the counts. -/
theorem State.checkerSearch_compared (s : State) (n : SeqNum) (w e e' : Word) (now : List CheckResult) :
    (s.compared w e (.locked e' now)).checkerSearch n 0
      = (s.compared w e .search).issue (noticeOf .checkLost s.checker.lane n 0) := by
  unfold State.compared
  dsimp only
  split <;> split <;> exact State.checkerSearch_locked _ rfl n 0

theorem State.checkerCompare_eq (s : State) (n : SeqNum) (w e : Word) (h : List CheckResult) :
    s.checkerCompare n w e h =
      let now := historyJoin h (if w = e then .matched else .mismatched)
      if 4 ≤ now.count .mismatched then (s.compared w e .search).issue (noticeOf .checkLost s.checker.lane n 0)
      else s.compared w e (.locked (s.checker.setting.following e) now) := by
  unfold State.checkerCompare
  dsimp only
  generalize historyJoin h _ = now
  have counts : (if (if w = e then CheckResult.matched else .mismatched) = .mismatched then
        (s.setCheckerState (.locked (s.checker.setting.following e) now)).countCheckedWord.countCheckedError
      else (s.setCheckerState (.locked (s.checker.setting.following e) now)).countCheckedWord)
        = s.compared w e (.locked (s.checker.setting.following e) now) := by
    rw [State.countCheckedError_record, State.countCheckedWord_record]
    unfold State.compared
    by_cases same : w = e
    · simp [same, State.setCheckerState]
      rfl
    · by_cases words : s.checker.wordCount.toNat = 4294967294
      · simp [same, words, State.setCheckerState, State.issue]
      · simp [same, words, State.setCheckerState]
  rw [counts, State.checkerSearch_compared]
  rfl

/-- Settles O45: the word is a seed, a match or a comparison, by the checker's state. -/
theorem checkerTakesAWord : Obligations.CheckerTakesAWord := by
  rintro s n w c seeded rfl isSeeded
  have isSeeded : seeded = s.checker.setting.seedState w := isSeeded.trans (PatternSetting.seedState_eq ..).symm
  subst isSeeded
  refine ⟨fun search => ?_, fun e k verify => ⟨fun other => ?_, fun same more => ?_, fun same last => ?_⟩, ?_⟩
  · unfold State.checkerWord
    rw [search]
    rfl
  · unfold State.checkerWord
    rw [verify]
    exact if_neg other
  · unfold State.checkerWord
    rw [verify]
    have more : ¬k + 1 = Config.lockRun := by
      rw [Config.lockRun]
      omega
    exact (if_pos same).trans (if_neg more)
  · unfold State.checkerWord
    rw [verify]
    have last : k + 1 = Config.lockRun := by rw [last, Config.lockRun]
    exact (if_pos same).trans (if_pos last)
  · rintro e h now locked short rfl
    unfold State.checkerWord
    rw [locked]
    dsimp only
    rw [State.checkerCompare_eq, historyJoin_eq]
    generalize (h ++ [_]).drop _ = now
    unfold State.compared
    by_cases lost : 4 ≤ now.count .mismatched
    · simp only [lost, if_true]
    · simp only [lost, if_false]

/-! ### Notices -/

/-- A batch that is due for commit (R157, R158). -/
theorem DeliveryPort.commitDue_eq (d : DeliveryPort) :
    d.commitDue =
      if d.messages.length + (if d.replyReserved = true then 1 else 0) < 8 then
        { d with
          messages := d.messages ++ [.notice d.lossFlag d.batch]
          batch := []
          timer := { remaining := 0, counting := false }
          commitPending := false
          lossFlag := false }
      else { d with commitPending := true, timer := { remaining := 0, counting := false } } := by
  unfold DeliveryPort.commitDue DeliveryPort.messageRoom
  simp only [decide_eq_true_eq]
  rfl

/-- Settles O35: the three cases of R156, and the expiry of R157. -/
theorem noticesJoinTheBatchAndAreCommitted : Obligations.NoticesJoinTheBatchAndAreCommitted := by
  rintro s n d due rfl isDue
  have joined : ∀ room : s.delivery.batch.length < 8, (s.delivery.join n).batch.length = s.delivery.batch.length + 1 :=
    fun _ => List.length_append
  refine ⟨fun few => ?_, fun seven => ?_, fun full => ?_, fun running expired => ?_⟩
  · have stays : s.delivery.issue n = s.delivery.join n := by
      unfold DeliveryPort.issue
      rw [Config.batchSize, if_pos (by omega), joined (by omega), if_neg (by omega)]
    unfold State.issue
    rw [stays]
    simp [DeliveryPort.join]
  · have commits : s.delivery.issue n = (s.delivery.join n).commitDue := by
      unfold DeliveryPort.issue
      rw [Config.batchSize, if_pos (by omega), joined (by omega), if_pos (by omega)]
    unfold State.issue
    rw [commits, DeliveryPort.commitDue_eq, isDue]
    have held : s.delivery.batch ≠ [] := by
      intro c
      rw [c] at seven
      contradiction
    simp only [DeliveryPort.join, List.isEmpty_iff, held, if_false]
  · have lost : s.delivery.issue n = DeliveryPort.bump { s.delivery with lossFlag := true } .noticesDiscarded :=
      if_neg (by rw [Config.batchSize]; omega)
    unfold State.issue
    rw [lost]
    rfl
  · change whileRunning _ s = _
    rw [whileRunning_of_deasserted running, if_pos (by rw [expired]; rfl), DeliveryPort.commitDue_eq, isDue]

/-! ### The pairs -/

/-- The DATA words of a parcel, one after another (R174). -/
theorem Receiver.feed_data {r : Receiver} (inStep : r.inStep = true) :
    ∀ (ws front : List Word), r.errorRun = 0 → r.parcel = some (receivedAs front) →
      (ws.map Symbol.data).foldl Receiver.feed r = { r with parcel := some (receivedAs (front ++ ws)) }
  | [], front, errors, parcel => by simp [← parcel]
  | w :: ws, front, errors, parcel => by
    have fed : r.feed (.data w) = { r with parcel := some (receivedAs (front ++ [w])) } := by
      unfold Receiver.feed
      simp [inStep, parcel, errors, receiveWord_receivedAs]
    have rest := Receiver.feed_data (r := { r with parcel := some (receivedAs (front ++ [w])) }) inStep ws (front ++ [w])
      errors rfl
    rw [List.map_cons, List.foldl_cons, fed, rest]
    simp

/-- Settles O46: the symbols by what is in transmission, the pairs by the symbol received. -/
theorem pairsCarryParcelsOrIdle : Obligations.PairsCarryParcelsOrIdle := by
  refine ⟨fun s => ⟨fun reset => ?_, fun running => ⟨?_, ?_, ?_, ?_, ?_⟩⟩, fun r w ws inStep => ?_, fun r out => ?_,
    fun s x => ⟨fun reset => ?_, fun running => ?_⟩⟩
  · simp [State.deliverySymbols, State.intakeReturnSymbols, reset]
  · intro idle
    simp [State.deliverySymbols, State.deliveryParcel, running, idle, drivenSymbols]
  · intro m ms w ws sending queue words
    simp [State.deliverySymbols, State.deliveryParcel, running, sending, queue, words, drivenSymbols, parcelSymbols]
  · intro p ps w ws sending queue words
    simp [State.deliverySymbols, State.deliveryParcel, running, sending, queue, words, drivenSymbols, parcelSymbols]
  · intro idle
    simp [State.intakeReturnSymbols, State.intakePaceParcel, running, idle, drivenSymbols]
  · intro p w ws sending words
    simp [State.intakeReturnSymbols, State.intakePaceParcel, running, sending, words, drivenSymbols, parcelSymbols]
  · refine ⟨?_, fun v => ?_, fun rx parcel => ?_, fun none => ?_, fun fourth => ?_, fun fewer => ?_⟩
    · have started : r.feed (.start w) = { r with errorRun := 0, parcel := some (receivedAs [w]) } := by
        simp [Receiver.feed, inStep, receivedAs_short]
      have rest := Receiver.feed_data (r := { r with errorRun := 0, parcel := some (receivedAs [w]) }) inStep ws [w] rfl rfl
      rw [started, rest]
      simp [inStep]
    · simp [Receiver.event, inStep]
    · simp [Receiver.event, Receiver.feed, inStep, parcel]
    · simp [Receiver.event, Receiver.feed, inStep, none]
    · simp [Receiver.event, Receiver.feed, inStep, fourth]
    · simp [Receiver.event, Receiver.feed, inStep, fewer]
  · refine ⟨fun eighth => ?_, fun fewer => ?_, fun x other => ?_⟩
    · simp [Receiver.event, Receiver.feed, out, eighth]
    · simp [Receiver.event, Receiver.feed, out, fewer]
    · cases x <;> simp_all [Receiver.event, Receiver.feed]
  · simp [State.intakeSymbol, State.returnSymbol, reset]
  · simp only [State.intakeSymbol, State.returnSymbol, running, Bool.false_eq_true, if_false]
    constructor
    · cases s.intake.receiver.event x with
      | none => rfl
      | some e => cases e <;> rfl
    · cases s.delivery.receiver.event x with
      | none => rfl
      | some e => cases e <;> rfl

end Sys2Proof.Machine
end

section
/-! The hum canceller at an entry, step by step (R35, R37 to R41). -/

namespace Sys2Proof.Machine

theorem clampSample_toInt (x : Int) : (clampSample x).toInt = max (-32768) (min 32767 x) := by
  unfold clampSample
  split
  · rw [toInt_ofInt_sample (by omega) (by omega)]
    omega
  · split
    · rw [toInt_ofInt_sample (by omega) (by omega)]
      omega
    · rw [toInt_ofInt_sample (by omega) (by omega)]
      omega

theorem State.profile_swap_same (s : State) (k : ProfileId) (a : Option LaneId) (q : SeqNum) :
    (s.swap k a q).profile k = (s.profile k).swapped := by
  simp [State.swap, State.profile, State.modProfile, State.issue]

/-- An entry whose profile has a swap pending takes the swap and begins on the part so reached (R37). -/
theorem State.humBegin_pending {s : State} {k : ProfileId} (pending : (s.profile k).swapPending = true) (l : LaneId)
    (n : SeqNum) : s.humBegin l (some k) n = (s.swap k (some l) n).humBegin l (some k) n := by
  have taken : ¬((s.swap k (some l) n).profile k).swapPending = true := by
    rw [State.profile_swap_same]
    simp [HumProfile.swapped]
  unfold State.humBegin
  dsimp only
  rw [if_pos pending, if_neg taken]

/-- An entry under the lane's own profile begins the phase again only where a restart is pending (R40). -/
theorem State.humBegin_same {s : State} {k : ProfileId} {l : LaneId} (idle : (s.profile k).swapPending = false)
    (same : (s.lane l).hum.profile = some k) (n : SeqNum) :
    s.humBegin l (some k) n =
      if (s.lane l).hum.restart = true then
        s.modHum l fun _ => { profile := some k, index := (s.profile k).restartIndex, restart := false }
      else s := by
  simp [State.humBegin, idle, same]

/-- An entry under another profile begins its phase, and the profile left behind may take its swap (R38, R40). -/
theorem State.humBegin_other {s : State} {k : ProfileId} {l : LaneId} (idle : (s.profile k).swapPending = false)
    (other : (s.lane l).hum.profile ≠ some k) (n : SeqNum) :
    s.humBegin l (some k) n =
      (s.modHum l fun _ => { profile := some k, index := (s.profile k).restartIndex, restart := false }).userLeft
        (s.lane l).hum.profile := by
  simp [State.humBegin, idle, other]

theorem State.userLeft_some (s : State) (k : ProfileId) :
    s.userLeft (some k) =
      if (s.profile k).swapPending = true ∧ ∀ m : LaneId, (s.lane m).uses k = false then s.swap k none 0 else s := by
  have unused : s.hasUser k = false ↔ ∀ m : LaneId, (s.lane m).uses k = false := by
    rw [← Bool.not_eq_true, State.hasUser_iff]
    simp
  simp only [State.userLeft, State.swapIfUnused, Bool.and_eq_true, Bool.not_eq_true', unused]

theorem nextIndex_mod {i len : Nat} (h : i < len) : nextIndex i len = (i + 1) % len := by
  unfold nextIndex
  split
  case isTrue last => rw [last, Nat.mod_self]
  case isFalse more => rw [Nat.mod_eq_of_lt (by omega)]

/-- Settles O28: the steps of an entry's cancellation, each by its own rule. -/
theorem humIsCancelledAtEntry : Obligations.HumIsCancelledAtEntry := by
  rintro s l h withHum rfl isWith
  refine ⟨?_, fun n => ?_, rfl, ?_, ?_, fun gain w => ⟨rfl, rfl, rfl⟩⟩
  · rintro k n p rfl
    refine ⟨fun pending => ?_, fun idle same => ?_, fun idle other => ?_⟩
    · rw [State.humBegin_pending pending, State.swap_eq]
    · rw [State.humBegin_same idle same, isWith]
      rfl
    · rw [State.humBegin_other idle other, isWith]
      rfl
  · rw [isWith]
    rfl
  · rintro k p rfl
    rw [State.userLeft_some, State.swap_eq]
  · rintro k p b gain w rfl rfl
    refine ⟨?_, ?_, ?_, fun wf low => ?_⟩
    · rw [isWith]
      rfl
    · exact clampSample_toInt _
    · rw [isWith]
      rfl
    · have advanced : ((s.humAdvance l (some k)).lane l).hum.index
          = nextIndex (s.lane l).hum.index ((s.profile k).bank (s.profile k).serving).length := by
        simp [State.humAdvance, HumProfile.servingBank]
      rw [advanced, nextIndex_mod low]

end Sys2Proof.Machine
end

section
/-! Assembly and placement (R100 to R103, R107 to R109): the parts of a completed assembly, and as many of them as there
are free places. -/

namespace Sys2Proof.Machine

/-! ### The placement of parts -/

/-- The parts of a COMPLETE assembly, in the order of their placement (R102, R103). -/
def AssemblyBody.parts (b : AssemblyBody) (l : LaneId) (ms : List MarkEntry) (f : SampleFlags) : List OutParcel :=
  ms.map (fun m => m.parcel l) ++ [b.parcel l f]

theorem AssemblyBody.length_parts (b : AssemblyBody) (l : LaneId) (ms : List MarkEntry) (f : SampleFlags) :
    (b.parts l ms f).length = ms.length + 1 := by simp [AssemblyBody.parts]

/-- What is left of a COMPLETE assembly when n of its parts have been placed. -/
def AssemblyBody.leftOf (b : AssemblyBody) (ms : List MarkEntry) (f : SampleFlags) (n : Nat) : Assembly :=
  if ms.length + 1 ≤ n then .empty else .complete b (ms.drop n) f

theorem IntakePort.offeredAgain_twice (p : IntakePort) (l : LaneId) : (p.offeredAgain l).offeredAgain l = p.offeredAgain l := by
  simp [IntakePort.offeredAgain]

/-- The part after n of the parts of lane l's COMPLETE assembly have joined the sample queue (R103, R140). -/
def State.partsPlaced (s : State) (l : LaneId) (b : AssemblyBody) (ms : List MarkEntry) (f : SampleFlags) (n : Nat) : State :=
  { s with
    delivery := { s.delivery with samples := s.delivery.samples ++ (b.parts l ms f).take n }
    intake := if n = 0 then s.intake else s.intake.offeredAgain l
    lanes := s.lanes.set l { s.lane l with assembly := b.leftOf ms f n } }

theorem State.partsPlaced_zero {s : State} {l : LaneId} {b : AssemblyBody} {ms : List MarkEntry} {f : SampleFlags}
    (h : (s.lane l).assembly = .complete b ms f) : s.partsPlaced l b ms f 0 = s := by
  have same : ({ s.lane l with assembly := b.leftOf ms f 0 } : Lane) = s.lane l := by
    simp [AssemblyBody.leftOf, ← h]
  unfold State.partsPlaced
  rw [same]
  simp [State.lane]

/-- One part placed: a leading mark, or last the SAMPLES parcel (R103). -/
theorem State.placePart_eq {s : State} {l : LaneId} {b : AssemblyBody} {ms : List MarkEntry} {f : SampleFlags}
    (h : (s.lane l).assembly = .complete b ms f) : s.placePart l = s.partsPlaced l b ms f 1 := by
  unfold State.placePart
  cases ms with
  | nil =>
    simp only [h, State.wake_offeredAgain]
    rfl
  | cons m ms =>
    simp only [h, State.wake_offeredAgain]
    simp [State.partsPlaced, AssemblyBody.parts, AssemblyBody.leftOf, State.setAssembly, State.modLane, State.pushSample,
      State.lane]

/-- After one part the others follow as if it had not been there. -/
theorem State.partsPlaced_succ {s : State} {l : LaneId} {b : AssemblyBody} {m : MarkEntry} {ms : List MarkEntry}
    {f : SampleFlags} (n : Nat) :
    (s.partsPlaced l b (m :: ms) f 1).partsPlaced l b ms f n = s.partsPlaced l b (m :: ms) f (n + 1) := by
  cases n <;>
    simp [State.partsPlaced, AssemblyBody.parts, AssemblyBody.leftOf, State.lane, IntakePort.offeredAgain_twice]

/-- The parts are placed as far as the free places allow (R103). -/
theorem State.placeParts_eq {l : LaneId} {b : AssemblyBody} {f : SampleFlags} :
    ∀ (ms : List MarkEntry) (s : State), (s.lane l).assembly = .complete b ms f →
      State.placeParts (ms.length + 1) l s = s.partsPlaced l b ms f (min (ms.length + 1) (32 - s.delivery.samples.length))
  | ms, s, h => by
    by_cases room : s.delivery.samples.length < 32
    · have step : State.placeParts (ms.length + 1) l s = State.placeParts ms.length l (s.partsPlaced l b ms f 1) := by
        rw [State.placeParts, if_pos, State.placePart_eq h]
        simp [h, Assembly.canTake, State.sampleRoom, Config.sampleQueueSize, room]
      rw [step]
      cases ms with
      | nil =>
        rw [List.length_nil, show min (0 + 1) (32 - s.delivery.samples.length) = 1 by omega]
        rfl
      | cons m ms =>
        have next : ((s.partsPlaced l b (m :: ms) f 1).lane l).assembly = .complete b ms f := by
          simp [State.partsPlaced, State.lane, AssemblyBody.leftOf]
        have queue : (s.partsPlaced l b (m :: ms) f 1).delivery.samples.length = s.delivery.samples.length + 1 := by
          simp [State.partsPlaced, AssemblyBody.parts]
        rw [List.length_cons, State.placeParts_eq ms _ next, queue, State.partsPlaced_succ]
        congr 1
        omega
    · have stays : State.placeParts (ms.length + 1) l s = s := by
        rw [State.placeParts, if_neg]
        simp [State.sampleRoom, Config.sampleQueueSize, room]
      rw [stays, show min (ms.length + 1) (32 - s.delivery.samples.length) = 0 by omega, State.partsPlaced_zero h]

theorem State.joinWait_append (s : State) (l : LaneId) :
    s.joinWait l = { s with waitList := if l ∈ s.waitList then s.waitList else s.waitList ++ [l] } := by
  unfold State.joinWait
  simp only [List.contains_iff_mem]
  split <;> rfl

/-- A COMPLETE assembly placed: with a part left its lane waits (R103). -/
theorem State.placeAssembly_eq {s : State} {l : LaneId} {b : AssemblyBody} {ms : List MarkEntry} {f : SampleFlags}
    (h : (s.lane l).assembly = .complete b ms f) :
    s.placeAssembly l =
      { s.partsPlaced l b ms f (32 - s.delivery.samples.length) with
        waitList :=
          if ms.length + 1 ≤ 32 - s.delivery.samples.length ∨ l ∈ s.waitList then s.waitList else s.waitList ++ [l] } := by
  generalize room : 32 - s.delivery.samples.length = n
  have placed : State.placeParts (s.lane l).assembly.parts l s = s.partsPlaced l b ms f (min (ms.length + 1) n) := by
    rw [h, ← room]
    exact State.placeParts_eq ms s h
  have left : ((s.partsPlaced l b ms f (min (ms.length + 1) n)).lane l).assembly = b.leftOf ms f (min (ms.length + 1) n) := by
    simp [State.partsPlaced, State.lane]
  unfold State.placeAssembly
  simp only [placed, left]
  by_cases all : ms.length + 1 ≤ n
  · have empties : b.leftOf ms f (ms.length + 1) = .empty ∧ b.leftOf ms f n = .empty := ⟨if_pos (Nat.le_refl _), if_pos all⟩
    obtain ⟨now, whole⟩ := empties
    have taken : (b.parts l ms f).take n = (b.parts l ms f).take (ms.length + 1) := by
      rw [List.take_of_length_le (by rw [AssemblyBody.length_parts]; exact all),
        List.take_of_length_le (by rw [AssemblyBody.length_parts])]
    rw [Nat.min_eq_left all, now]
    simp only [Assembly.canTake, if_true, all, true_or, State.partsPlaced, now, whole, taken,
      show ¬n = 0 by omega, show ¬ms.length + 1 = 0 by omega, if_false]
  · have waits : b.leftOf ms f n = .complete b (ms.drop n) f := if_neg all
    rw [Nat.min_eq_right (by omega), waits, State.joinWait_append]
    simp only [Assembly.canTake, all, false_or, Bool.false_eq_true, if_false]
    rfl

/-! ### Completion -/

/-- The gate step of a completion: the lane's new gate and its notice (R107, R109). -/
theorem State.gateStep_eq (s : State) (l : LaneId) (b : AssemblyBody) :
    s.gateStep l b =
      State.withLane
        (if (s.lane l).config.hissEnable = true ∧ (s.lane l).config.gateNotices = true then
          if (s.lane l).gate.isClosing = true ∧ (s.lane l).gateAfter b = .closed then
            s.issue (noticeOf .gateClosed (some l) b.seq 0)
          else if (s.lane l).gate.isLow = true ∧ (s.lane l).gateAfter b = .opened then
            s.issue (noticeOf .gateOpened (some l) b.seq 0)
          else s
        else s)
        l { s.lane l with gate := (s.lane l).gateAfter b } := by
  unfold State.gateStep gateChange
  simp only [Bool.and_eq_true, decide_eq_true_eq]
  split
  · split
    case h_1 k change =>
      split at change
      case isTrue closed =>
        cases change
        rw [if_pos closed]
        rfl
      case isFalse open_ =>
        rw [if_neg open_]
        split at change
        case isTrue opened =>
          cases change
          rw [if_pos opened]
          rfl
        case isFalse => contradiction
    case h_2 change =>
      split at change
      case isTrue => contradiction
      case isFalse open_ =>
        rw [if_neg open_]
        split at change
        case isTrue => contradiction
        case isFalse same =>
          rw [if_neg same]
          rfl
  · rfl

theorem leadingMarks_eq (ms : List MarkEntry) (n : SeqNum) :
    leadingMarks ms n = ms.filter fun (m : MarkEntry) => decide ((n - m.seq).toNat < 8388608) := rfl

theorem laterMarks_eq (ms : List MarkEntry) (n : SeqNum) :
    laterMarks ms n = ms.filter fun (m : MarkEntry) => decide (8388608 ≤ (n - m.seq).toNat) := by
  unfold laterMarks atOrBefore forwardDistance Config.behindDistance
  simp only [← decide_not, Nat.not_lt]

theorem Lane.gateAfter_eq (ln : Lane) (b : AssemblyBody) :
    ln.gateAfter b =
      if ln.config.hissEnable = false then .opened
      else if b.route = .restore then
        ln.gate.after ln.config.openThreshold ln.config.closeThreshold ln.config.holdCount
          (b.samples.foldl (fun m v => max m v.toInt.natAbs) 0)
      else ln.gate := by
  unfold Lane.gateAfter
  cases ln.config.hissEnable <;> rfl

theorem State.parcelGain_eq (s : State) (l : LaneId) (b : AssemblyBody) :
    s.parcelGain l b =
      if (s.lane l).config.hissEnable = true ∧ b.route = .restore then
        (s.ramps[(s.lane l).config.rampTable]).toList.getD
          (match (s.lane l).gateAfter b with | .opened => 15 | .holding _ => 15 | .closing i => i | .closed => 0) 0
      else 256 := rfl

/-- Settles O40: the gate, the scaling, the marks that lead, and the placement, one after another. -/
theorem assemblyCompletesAndIsPlaced : Obligations.AssemblyCompletesAndIsPlaced := by
  rintro s l b ln gate gain f scaled lead later parts room u rfl isGate isGain isScaled rfl isLead isLater isParts rfl isU
  have isGate : gate = (s.lane l).gateAfter b := isGate.trans (Lane.gateAfter_eq _ b).symm
  subst isGate
  have isGain : gain = s.parcelGain l b := isGain.trans (s.parcelGain_eq l b).symm
  subst isGain
  rw [← leadingMarks_eq] at isLead
  rw [← laterMarks_eq] at isLater
  subst isLead isLater
  have stepped := s.gateStep_eq l b
  rw [← isU] at stepped
  have uSamples : u.delivery.samples = s.delivery.samples := by
    rw [isU]
    split
    · split
      · simp
      · split <;> simp
    · rfl
  have uRest : u = { s with delivery := u.delivery } := by
    rw [isU]
    split
    · split
      · rfl
      · split <;> rfl
    · rfl
  subst isScaled isParts
  generalize u.delivery = d at uSamples uRest
  subst uRest
  have complete : s.completeAssembly l b =
      State.placeAssembly
        (State.withLane { s with delivery := d } l
          { s.lane l with
            gate := (s.lane l).gateAfter b
            marks := laterMarks (s.lane l).marks b.seq
            assembly :=
              .complete { b with samples := b.samples.map (scaleSample (s.parcelGain l b)) }
                (leadingMarks (s.lane l).marks b.seq) (b.flags (decide (s.parcelGain l b ≠ 256))) }) l := by
    unfold State.completeAssembly
    dsimp only
    rw [stepped, State.modLane_eq_withLane, State.lane_withLane_same, State.withLane_withLane]
  rw [complete, State.placeAssembly_eq (congrArg Lane.assembly (State.lane_withLane_same _ _ _))]
  simp only [State.partsPlaced, State.lane_withLane_same]
  simp only [State.withLane, uSamples, AssemblyBody.parts, AssemblyBody.leftOf,
    Vector.set_set, List.length_append, List.length_map, List.length_cons, List.length_nil, Nat.zero_add]
  rfl

end Sys2Proof.Machine
end

section
/-! Departure (R74 to R79, R89 to R91, R98, R99): the head sample's tests, its departure as one record, and the release of
the records it leaves behind. -/

namespace Sys2Proof.Machine

/-! ### What a lane carries through departure -/

/-- What departure leaves of a lane: all but the hold line, the assembly, the marks, the gate, and the run list, in which no
run begins to grow. Of the counters only those of released runs and late marks may move. -/
structure Lane.Carried (x y : Lane) : Prop where
  state : y.state = x.state
  config : y.config = x.config
  allocation : y.allocation = x.allocation
  expected : y.expected = x.expected
  nextPosition : y.nextPosition = x.nextPosition
  timer : y.timer = x.timer
  hum : y.hum = x.hum
  counters : ∀ c : LaneCounter, c ≠ .runsRepaired → c ≠ .runsUnrepaired → c ≠ .lateSplices → y.counter c = x.counter c
  settled : (∀ r ∈ x.det.runs, r.growing = false) → ∀ r ∈ y.det.runs, r.growing = false

theorem Lane.Carried.refl (x : Lane) : x.Carried x := ⟨rfl, rfl, rfl, rfl, rfl, rfl, rfl, fun _ _ _ _ => rfl, id⟩

theorem Lane.Carried.trans {x y z : Lane} (h : x.Carried y) (k : y.Carried z) : x.Carried z where
  state := k.state.trans h.state
  config := k.config.trans h.config
  allocation := k.allocation.trans h.allocation
  expected := k.expected.trans h.expected
  nextPosition := k.nextPosition.trans h.nextPosition
  timer := k.timer.trans h.timer
  hum := k.hum.trans h.hum
  counters c a b d := (k.counters c a b d).trans (h.counters c a b d)
  settled := k.settled ∘ h.settled

/-- A lane that keeps its hold line too. -/
def Lane.LineKept (x y : Lane) : Prop := x.Carried y ∧ y.held = x.held

theorem Lane.LineKept.refl (x : Lane) : x.LineKept x := ⟨.refl x, rfl⟩

theorem Lane.LineKept.trans {x y z : Lane} (h : x.LineKept y) (k : y.LineKept z) : x.LineKept z :=
  ⟨h.1.trans k.1, k.2.trans h.2⟩

theorem Lane.lineKept_bump (x : Lane) {c : LaneCounter} (h : c = .runsRepaired ∨ c = .runsUnrepaired ∨ c = .lateSplices)
    (n : Nat) : x.LineKept (x.bump c n) :=
  ⟨{ Lane.Carried.refl x with
      counters := fun d a b e => x.counter_bump_ne n (by rintro rfl; obtain c | c | c := h <;> contradiction) }, rfl⟩

theorem State.lineKept_modLane (s : State) (l : LaneId) (f : Lane → Lane) (h : (s.lane l).LineKept (f (s.lane l))) :
    (s.lane l).LineKept ((s.modLane l f).lane l) := by
  rw [State.lane_modLane_same]
  exact h

theorem State.lineKept_count (s : State) (l : LaneId) {c : LaneCounter}
    (h : c = .runsRepaired ∨ c = .runsUnrepaired ∨ c = .lateSplices) (n : Nat) :
    (s.lane l).LineKept ((s.count l c n).lane l) := State.lineKept_modLane s l _ (Lane.lineKept_bump _ h n)

theorem State.lineKept_foldl {α : Type} {l : LaneId} {x : Lane} (f : State → α → State)
    (h : ∀ (t : State) (a : α), (t.lane l).LineKept ((f t a).lane l)) :
    ∀ (xs : List α) (s : State), x.LineKept (s.lane l) → x.LineKept ((xs.foldl f s).lane l)
  | [], _, k => k
  | a :: xs, s, k => State.lineKept_foldl f h xs (f s a) (k.trans (h s a))

theorem State.lineKept_reportRelease (s : State) (l : LaneId) (r : RunRecord) :
    (s.lane l).LineKept ((s.reportRelease l r).lane l) := by
  unfold State.reportRelease
  split
  · exact s.lineKept_count l (.inl rfl) 1
  · exact s.lineKept_count l (.inr (.inl rfl)) 1
  · exact .refl _
  · exact .refl _
  · exact .refl _

theorem State.lineKept_releaseRuns (s : State) (l : LaneId) : (s.lane l).LineKept ((s.releaseRuns l).lane l) := by
  unfold State.releaseRuns
  dsimp only
  split
  · exact .refl _
  · have dropped := s.lineKept_modLane l
      (fun ln => { ln with det := { ln.det with runs := ln.det.runs.filter fun r => !r.released (s.lane l).headPosition } })
      ⟨{ Lane.Carried.refl _ with settled := fun still r hr => still r (List.mem_of_mem_filter hr) }, rfl⟩
    exact State.lineKept_foldl _ (fun t r => t.lineKept_reportRelease l r) _ _ dropped

/-- The parts placed leave the hold line. -/
theorem State.lineKept_placePart (s : State) (l : LaneId) : (s.lane l).LineKept ((s.placePart l).lane l) := by
  unfold State.placePart
  split
  · rw [State.lane_wake]
    exact State.lineKept_modLane (s.pushSample _) l _ ⟨{ Lane.Carried.refl _ with }, rfl⟩
  · rw [State.lane_wake]
    exact State.lineKept_modLane (s.pushSample _) l _ ⟨{ Lane.Carried.refl _ with }, rfl⟩
  · exact .refl _
  · exact .refl _

theorem State.lineKept_placeParts : ∀ (n : Nat) (l : LaneId) (s : State),
    (s.lane l).LineKept ((State.placeParts n l s).lane l)
  | 0, _, _ => .refl _
  | n + 1, l, s => by
    unfold State.placeParts
    split
    · exact (s.lineKept_placePart l).trans (State.lineKept_placeParts n l _)
    · exact .refl _

theorem State.lineKept_placeAssembly (s : State) (l : LaneId) : (s.lane l).LineKept ((s.placeAssembly l).lane l) := by
  unfold State.placeAssembly
  dsimp only
  split
  · exact State.lineKept_placeParts _ l s
  · rw [State.lane_joinWait]
    exact State.lineKept_placeParts _ l s

theorem State.lineKept_gateStep (s : State) (l : LaneId) (b : AssemblyBody) :
    (s.lane l).LineKept ((s.gateStep l b).lane l) := by
  rw [State.gateStep_eq, State.lane_withLane_same]
  exact ⟨{ Lane.Carried.refl _ with }, rfl⟩

theorem State.lineKept_completeAssembly (s : State) (l : LaneId) (b : AssemblyBody) :
    (s.lane l).LineKept ((s.completeAssembly l b).lane l) :=
  ((s.lineKept_gateStep l b).trans (State.lineKept_modLane _ _ _ ⟨{ Lane.Carried.refl _ with }, rfl⟩)).trans
    (State.lineKept_placeAssembly _ l)

theorem State.lineKept_collect (s : State) (l : LaneId) (p : HeldParcel) (v : Sample) (t : Treatment) (f : Bool) :
    (s.lane l).LineKept ((s.collect l p v t f).lane l) := by
  unfold State.collect
  dsimp only
  have taken : (s.takeWord l p.route).lane l = s.lane l := by
    unfold State.takeWord State.generatorTaken
    split
    · split <;> rfl
    · rfl
  generalize s.takeWord l p.route = t at taken
  rw [← taken]
  have built : ∀ a, (t.lane l).LineKept ((t.setAssembly l a).lane l) := fun a =>
    State.lineKept_modLane t l _ ⟨{ Lane.Carried.refl _ with }, rfl⟩
  split
  · exact (built _).trans (State.lineKept_completeAssembly _ l _)
  · exact built _

theorem State.lineKept_placeTrailing (s : State) (l : LaneId) : (s.lane l).LineKept ((s.placeTrailing l).lane l) := by
  unfold State.placeTrailing
  split
  · exact .refl _
  · rename_i m ms _
    have taken := State.lineKept_modLane s l (fun ln => { ln with marks := ms }) ⟨{ Lane.Carried.refl _ with }, rfl⟩
    dsimp only
    rw [State.lane_pushSample]
    split
    · exact taken.trans (State.lineKept_count _ l (.inr (.inr rfl)) 1)
    · exact taken

theorem State.lineKept_placeTrailings : ∀ (n : Nat) (l : LaneId) (s : State),
    (s.lane l).LineKept ((State.placeTrailings n l s).lane l)
  | 0, _, _ => .refl _
  | n + 1, l, s => by
    unfold State.placeTrailings
    split
    · exact (s.lineKept_placeTrailing l).trans (State.lineKept_placeTrailings n l _)
    · exact .refl _

theorem State.lineKept_placeTrailingMarks (s : State) (l : LaneId) :
    (s.lane l).LineKept ((s.placeTrailingMarks l).lane l) := by
  unfold State.placeTrailingMarks
  dsimp only
  split
  · rw [State.lane_joinWait]
    exact State.lineKept_placeTrailings _ l s
  · exact State.lineKept_placeTrailings _ l s

/-! ### The head sample -/

/-- The positions a run list bars from departing (R75). -/
theorem Lane.blockingRun?_isNone (ln : Lane) (x : Nat) :
    (ln.blockingRun? x).isNone = true ↔
      ∀ r ∈ ln.det.runs, r.first ≤ x → x ≤ r.last → r.state ≠ .queued ∧ r.state ≠ .repairing := by
  unfold Lane.blockingRun?
  rw [Option.isNone_iff_eq_none, List.find?_eq_none]
  refine forall₂_congr fun r _ => ?_
  simp only [RunRecord.covers, RunRecord.blocks, Bool.and_eq_true, decide_eq_true_eq]
  cases r.state <;> simp

theorem Assembly.canTake_iff (a : Assembly) : a.canTake = true ↔ ∀ b ms f, a ≠ .complete b ms f := by
  cases a <;> simp [Assembly.canTake]

theorem Lane.due_iff (ln : Lane) (x : Nat) :
    ln.due x = true ↔ ln.state.isFlushing = true ∨ ln.config.lookahead ≤ ln.nextPosition - 1 - x := by
  simp only [Lane.due, Bool.or_eq_true, decide_eq_true_eq]
  rfl

/-- The head sample departs now (R75). -/
theorem Lane.canDepart_iff (ln : Lane) :
    ln.canDepart = true ↔
      ∃ (p : HeldParcel) (ps : List HeldParcel), ln.held = p :: ps
        ∧ (ln.state.isFlushing = true ∨ ln.config.lookahead ≤ ln.nextPosition - 1 - (p.firstPosition + p.departed))
        ∧ (∀ r ∈ ln.det.runs, r.first ≤ p.firstPosition + p.departed → p.firstPosition + p.departed ≤ r.last →
            r.state ≠ .queued ∧ r.state ≠ .repairing)
        ∧ ∀ b ms f, ln.assembly ≠ .complete b ms f := by
  unfold Lane.canDepart
  simp only [Bool.and_eq_true, Lane.due_iff, Lane.blockingRun?_isNone, Assembly.canTake_iff, Lane.headPosition]
  cases ln.held with
  | nil => simp
  | cons p ps => simp [and_assoc]

/-! ### Overtaking -/

/-- The overtaking of a growing run that begins at or before x (R79). -/
theorem Lane.overtake_eq (ln : Lane) (x : Nat) :
    ln.overtake x =
      { ln with
        det :=
          match ln.det.runs.getLast? with
          | none => ln.det
          | some r =>
            if r.growing = true ∧ r.first ≤ x then
              { ln.det with
                runs := ln.det.runs.map fun (q : RunRecord) =>
                  if q.number = r.number then
                    { q with
                      state := if q.state = .opened then .unrepaired .overtaken else q.state
                      last := max q.last x }
                  else q
                calmCount := if r.last < x then ln.nextPosition - 1 - x else ln.det.calmCount }
            else ln.det } := by
  unfold Lane.overtake Detector.openRun? Detector.latest?
  cases last : ln.det.runs.getLast? with
  | none => rfl
  | some r =>
    dsimp only
    by_cases growing : r.growing = true
    · by_cases before : r.first ≤ x
      · rw [if_pos growing, if_pos ⟨growing, before⟩]
        dsimp only
        rw [if_pos before]
        by_cases raised : r.last < x
        · rw [if_pos raised, if_pos raised]
          rfl
        · rw [if_neg raised, if_neg raised]
          rfl
      · rw [if_pos growing, if_neg fun c => before c.2]
        exact if_neg before
    · rw [if_neg growing, if_neg fun c => growing c.1]

theorem Detector.runAt?_eq (d : Detector) (x : Nat) :
    d.runAt? x = d.runs.find? fun (r : RunRecord) => decide (r.first ≤ x ∧ x ≤ r.last) := by
  simp only [Detector.runAt?, RunRecord.covers, Bool.decide_and]

/-! ### The value and its treatment -/

theorem treatmentOf_repaired (r : Route) (run : Option RunRecord) :
    decide (treatmentOf r run = .repaired) = decide (r = .restore ∧ ∃ q, run = some q ∧ q.state = .repaired) := by
  cases r <;> cases run with
    | none => simp [treatmentOf]
    | some q => cases h : q.state <;> simp [treatmentOf, h, RunState.isUnrepaired]

theorem treatmentOf_fallback (r : Route) (run : Option RunRecord) :
    decide (treatmentOf r run = .fallback) = decide (r = .restore ∧ ∃ q, run = some q ∧ q.state.isUnrepaired = true) := by
  cases r <;> cases run with
    | none => simp [treatmentOf]
    | some q => cases h : q.state <;> simp [treatmentOf, h, RunState.isUnrepaired]

theorem handedValue_eq (t : Treatment) (f : Fallback) (run : Option RunRecord) (v : Sample) :
    handedValue t f run v =
      if decide (t = .fallback) = true then
        (match f with | .zero => 0 | .hold => (run.bind fun (r : RunRecord) => r.leftAnchor).getD 0 | .keep => v)
      else v := by cases t <;> rfl

/-- A route that keeps the hold line's values hands on the held value, the fallback or the repaired one (R76, R98). -/
theorem State.collectedValue_eq (s : State) (l : LaneId) (r : Route) (v : Sample) :
    s.collectedValue l r v =
      if r = .mute then 0
      else if r = .generate then (if s.generator.lane = some l then s.generator.given else 0)
      else v := by cases r <;> rfl

theorem State.takeWord_eq (s : State) (l : LaneId) (r : Route) :
    s.takeWord l r =
      { s with
        generator := if r = .generate ∧ s.generator.lane = some l then s.generator.advance else s.generator } := by
  unfold State.takeWord State.generatorTaken
  by_cases generate : r = .generate <;> by_cases attached : s.generator.lane = some l <;> simp [generate, attached]

/-! ### One departure -/

/-- The entry of a lane that was set. -/
theorem State.lane_of_set {s t : State} {l : LaneId} {y : Lane} (h : t.lanes = s.lanes.set l y) : t.lane l = y := by
  simp [State.lane, h]

/-- A departing sample in the assembly, which completes with the last of its parcel (R98 to R100). -/
theorem State.collect_eq (s : State) (l : LaneId) (p : HeldParcel) (v : Sample) (t : Treatment) (f : Bool) {b : AssemblyBody}
    (hb : b = ((s.lane l).assembly.bodyFor p).collect (s.collectedValue l p.route v) t f) {u : State}
    (hu : u =
      { s with
        generator := if p.route = .generate ∧ s.generator.lane = some l then s.generator.advance else s.generator
        lanes := s.lanes.set l { s.lane l with assembly := .building b } }) :
    s.collect l p v t f = if b.samples.length < b.count then u else u.completeAssembly l b := by
  subst hu
  unfold State.collect
  dsimp only
  rw [State.takeWord_eq]
  change (if (((s.lane l).assembly.bodyFor p).collect (s.collectedValue l p.route v) t f).count
    ≤ (((s.lane l).assembly.bodyFor p).collect (s.collectedValue l p.route v) t f).samples.length then _ else _) = _
  rw [← hb]
  by_cases more : b.samples.length < b.count
  · rw [if_neg (by omega), if_pos more, hb]
    rfl
  · rw [if_pos (by omega), if_neg more, hb]
    rfl

/-- The departure of the head sample, as one record (R75 to R79, R98, R99). -/
theorem State.departOne_eq {s : State} {l : LaneId} {p : HeldParcel} {ps : List HeldParcel} {v : Sample} {vs : List Sample}
    (held : (s.lane l).held = p :: ps) (samples : p.samples = v :: vs) {y : Lane}
    (hy : y = (s.lane l).overtake p.headPosition) {run : Option RunRecord} (hrun : run = y.det.runAt? p.headPosition)
    {b : AssemblyBody}
    (hb : b =
      ((s.lane l).assembly.bodyFor p).collect
        (s.collectedValue l p.route (handedValue (treatmentOf p.route run) p.fallback run v)) (treatmentOf p.route run)
        ((s.lane l).state.isFlushing
          && decide ((s.lane l).enteredAfter p.headPosition < (s.lane l).config.lookahead)))
    {u : State}
    (hu : u =
      { s with
        generator := if p.route = .generate ∧ s.generator.lane = some l then s.generator.advance else s.generator
        intake := s.intake.offeredAgain l
        lanes := s.lanes.set l
          { y with
            held := if vs = [] then ps else { p with samples := vs, departed := p.departed + 1 } :: ps
            assembly := .building b } }) :
    s.departOne l = (if b.samples.length < b.count then u else u.completeAssembly l b).releaseRuns l := by
  have after : heldAfter p ps = if vs = [] then ps else { p with samples := vs, departed := p.departed + 1 } :: ps := by
    simp only [heldAfter, samples, List.tail_cons, List.isEmpty_iff]
  have kept : y.state = (s.lane l).state ∧ y.config = (s.lane l).config ∧ y.nextPosition = (s.lane l).nextPosition
      ∧ y.assembly = (s.lane l).assembly := by
    rw [hy, Lane.overtake_eq]
    exact ⟨rfl, rfl, rfl, rfl⟩
  obtain ⟨state, config, next, assembly⟩ := kept
  have flushed : (y.state.isFlushing && decide (y.enteredAfter p.headPosition < y.config.lookahead))
      = ((s.lane l).state.isFlushing
        && decide ((s.lane l).enteredAfter p.headPosition < (s.lane l).config.lookahead)) := by
    rw [Lane.enteredAfter, Lane.enteredAfter, state, config, next]
  have left : ((s.modLane l fun ln => ln.overtake p.headPosition).modLane l fun ln => { ln with held := heldAfter p ps }).wake l
      = { s with intake := s.intake.offeredAgain l, lanes := s.lanes.set l { y with held := heldAfter p ps } } := by
    rw [State.wake_offeredAgain, hy]
    simp [State.modLane, State.lane]
  have now : State.lane
      { s with intake := s.intake.offeredAgain l, lanes := s.lanes.set l { y with held := heldAfter p ps } } l
        = { y with held := heldAfter p ps } := State.lane_of_set rfl
  unfold State.departOne
  rw [held]
  dsimp only
  rw [State.lane_modLane_same, ← hy, flushed, ← hrun, left, samples, List.headD_cons]
  refine congrArg (State.releaseRuns · l) (State.collect_eq _ l p _ _ _ (hb.trans ?_) (hu.trans ?_))
  · rw [now, ← assembly]
    rfl
  · rw [now]
    simp [after]

/-! ### Release -/

/-- A record still in the hold line keeps the run list as it is (R90). -/
theorem State.releaseRuns_none {s : State} {l : LaneId}
    (h : ∀ r ∈ (s.lane l).det.runs, r.growing = true ∨ (s.lane l).headPosition ≤ r.last) : s.releaseRuns l = s := by
  unfold State.releaseRuns
  dsimp only
  rw [if_pos]
  rw [List.isEmpty_iff, List.filter_eq_nil_iff]
  intro r hr
  have held := h r hr
  simp only [RunRecord.released, Bool.and_eq_true, Bool.not_eq_true', decide_eq_true_eq, not_and, Nat.not_lt]
  intro still
  simpa [still] using held

/-- The one record that has passed the head is released, counted and reported (R90, R91). -/
theorem State.releaseRuns_head {s : State} {l : LaneId} {r : RunRecord} {rs : List RunRecord}
    (runs : (s.lane l).det.runs = r :: rs) (still : r.growing = false) (passed : r.last < (s.lane l).headPosition)
    (rest : ∀ q ∈ rs, q.growing = true ∨ (s.lane l).headPosition ≤ q.last) :
    s.releaseRuns l =
      State.reportRelease
        { s with fullNoticed := false, lanes := s.lanes.set l { s.lane l with det := { (s.lane l).det with runs := rs } } } l r := by
  have gone : r.released (s.lane l).headPosition = true := by simp [RunRecord.released, still, passed]
  have stay : ∀ q ∈ rs, q.released (s.lane l).headPosition = false := by
    intro q hq
    have held := rest q hq
    cases growing : q.growing
    · have held : (s.lane l).headPosition ≤ q.last := by simpa [growing] using held
      simp [RunRecord.released, growing, held]
    · simp [RunRecord.released, growing]
  have one : (r :: rs).filter (fun q => q.released (s.lane l).headPosition) = [r] := by
    rw [List.filter_cons_of_pos (by exact gone), List.filter_eq_nil_iff.2 fun q hq => by simp [stay q hq]]
  have others : (r :: rs).filter (fun q => !q.released (s.lane l).headPosition) = rs := by
    rw [List.filter_cons_of_neg (by simp [gone]), List.filter_eq_self.2 fun q hq => by simp [stay q hq]]
  unfold State.releaseRuns
  dsimp only
  rw [runs, one]
  change State.reportRelease
    { s with
      fullNoticed := false
      lanes := s.lanes.set l
        { s.lane l with
          det :=
            { (s.lane l).det with
              runs := (s.lane l).det.runs.filter fun q => !q.released (s.lane l).headPosition } } } l r = _
  rw [runs, others]

/-! ### Departure as far as it can go -/

/-- Overtaking touches the run list and the calm count only, and no run begins to grow (R79). -/
theorem Lane.lineKept_overtake (ln : Lane) (x : Nat) : ln.LineKept (ln.overtake x) := by
  rw [Lane.overtake_eq]
  refine ⟨{ Lane.Carried.refl ln with settled := fun still r hr => ?_ }, rfl⟩
  split at hr
  · exact still r hr
  · split at hr
    · obtain ⟨q, hq, rfl⟩ := List.mem_map.1 hr
      split
      · exact still q hq
      · exact still q hq
    · exact still r hr

/-- What one departure makes of the lane: the head sample is gone, and the rest is carried through (R75). -/
theorem State.carried_departOne {s : State} {l : LaneId} {p : HeldParcel} {ps : List HeldParcel}
    (h : (s.lane l).held = p :: ps) :
    (s.lane l).Carried ((s.departOne l).lane l) ∧ ((s.departOne l).lane l).held = heldAfter p ps := by
  unfold State.departOne
  rw [h]
  dsimp only
  generalize p.headPosition = x
  have overtaken : (s.lane l).LineKept ((s.modLane l fun ln => ln.overtake x).lane l) :=
    s.lineKept_modLane l _ (Lane.lineKept_overtake _ x)
  generalize (s.modLane l fun ln => ln.overtake x) = s1 at overtaken
  have shortened : (s1.lane l).Carried (((s1.modLane l fun ln => { ln with held := heldAfter p ps }).wake l).lane l)
      ∧ (((s1.modLane l fun ln => { ln with held := heldAfter p ps }).wake l).lane l).held = heldAfter p ps := by
    rw [State.lane_wake, State.lane_modLane_same]
    exact ⟨{ Lane.Carried.refl _ with }, rfl⟩
  generalize ((s1.modLane l fun ln => { ln with held := heldAfter p ps }).wake l) = s2 at shortened
  obtain ⟨carried, line⟩ := shortened
  have rest := fun v t f => (s2.lineKept_collect l p v t f).trans (State.lineKept_releaseRuns _ l)
  exact ⟨(overtaken.1.trans carried).trans (rest _ _ _).1, (rest _ _ _).2.trans line⟩

theorem heldAfter_samples {p : HeldParcel} {ps : List HeldParcel} {v : Sample} {vs : List Sample} (h : p.samples = v :: vs) :
    (((heldAfter p ps).map fun q => q.samples.length).sum + 1 = ((p :: ps).map fun q => q.samples.length).sum)
      ∧ ((∀ q ∈ p :: ps, q.samples ≠ []) → ∀ q ∈ heldAfter p ps, q.samples ≠ []) := by
  unfold heldAfter
  rw [h]
  cases vs with
  | nil => simp [h, Nat.add_comm]
  | cons w ws => simp [h]; omega

/-- Departure goes on from the part that one departure reaches (R78). -/
theorem State.depart_step {s : State} {l : LaneId} (full : ∀ p ∈ (s.lane l).held, p.samples ≠ [])
    (can : (s.lane l).canDepart = true) : s.depart l = (s.departOne l).depart l := by
  obtain ⟨p, ps, held, _⟩ := (Lane.canDepart_iff _).1 can
  obtain ⟨v, vs, samples⟩ := List.exists_cons_of_ne_nil (full p (by simp [held]))
  have fewer : ((s.departOne l).lane l).occupancy + 1 = (s.lane l).occupancy := by
    rw [Lane.occupancy, Lane.occupancy, (State.carried_departOne held).2, held]
    exact (heldAfter_samples samples).1
  unfold State.depart
  rw [← fewer, State.departUpTo, if_pos can]

/-- With the head sample held back, departure is what follows it (R78, R105, R10, R26). -/
theorem State.depart_stop {s : State} {l : LaneId} (stop : ¬(s.lane l).canDepart = true) :
    s.depart l = (s.placeTrailingMarks l).settle l := by
  have stays : ∀ n, State.departUpTo n l s = s := fun n => by
    cases n with
    | zero => rfl
    | succ n => exact if_neg stop
  unfold State.depart
  rw [stays]

/-- Settles O38: the head sample's tests, its departure, and the release of one record. -/
theorem samplesDepartInOrder : Obligations.SamplesDepartInOrder := by
  refine ⟨?_, ?_, ?_⟩
  · rintro s l ln canGo rfl full isCan
    rw [← Lane.canDepart_iff] at isCan
    rw [isCan]
    exact ⟨State.depart_step full, State.depart_stop⟩
  · rintro s l ln p ps v vs x d run value fallen repaired b u rfl held samples rfl isD isRun isRepaired isFallen isValue isB isU
    have overtaken : ({ s.lane l with det := d } : Lane) = (s.lane l).overtake p.headPosition := by
      rw [Lane.overtake_eq, isD]
      rfl
    have isRun : run = d.runAt? p.headPosition := by
      rw [Detector.runAt?_eq]
      exact isRun
    rw [← treatmentOf_repaired] at isRepaired
    rw [← treatmentOf_fallback] at isFallen
    subst isRepaired isFallen
    have isValue : value = s.collectedValue l p.route (handedValue (treatmentOf p.route run) p.fallback run v) := by
      rw [State.collectedValue_eq, handedValue_eq]
      exact isValue
    subst isValue
    have isB : b = ((s.lane l).assembly.bodyFor p).collect
        (s.collectedValue l p.route (handedValue (treatmentOf p.route run) p.fallback run v)) (treatmentOf p.route run)
        ((s.lane l).state.isFlushing
          && decide ((s.lane l).enteredAfter p.headPosition < (s.lane l).config.lookahead)) := by
      rw [isB]
      unfold Assembly.bodyFor
      cases (s.lane l).assembly <;> rfl
    exact State.departOne_eq held samples overtaken isRun isB isU
  · rintro s l ln head rfl isHead
    have isHead : head = (s.lane l).headPosition := isHead
    subst isHead
    refine ⟨State.releaseRuns_none, fun r rs runs still passed rest => ⟨fun repaired => ?_, fun why unrepaired => ?_⟩⟩
    · rw [State.releaseRuns_head runs still passed rest]
      unfold State.reportRelease
      rw [repaired]
      simp [State.count, State.modLane, State.lane, Lane.counted, Lane.bump]
    · rw [State.releaseRuns_head runs still passed rest]
      unfold State.reportRelease
      rw [unrepaired]
      simp [State.count, State.modLane, State.lane, Lane.counted, Lane.bump]
      rfl

end Sys2Proof.Machine
end

section
/-! Trailing marks, the drain and stall test, and the ends of transmissions (R10, R26, R61, R103 to R105, R140, R151, R152,
R158). -/

namespace Sys2Proof.Machine

/-! ### Trailing marks -/

theorem Lane.trailing_iff (ln : Lane) :
    ln.trailing = true ↔ ln.state.isFlushing = true ∧ ln.held = [] ∧ ln.assembly = .empty ∧ ln.marks ≠ [] := by
  have empty : ln.assembly.isEmpty = true ↔ ln.assembly = .empty := by cases ln.assembly <;> simp [Assembly.isEmpty]
  simp [Lane.trailing, empty, and_assoc]

theorem State.placeTrailings_stop {s : State} {l : LaneId}
    (h : ¬((s.lane l).trailing = true ∧ s.sampleRoom = true)) (n : Nat) : State.placeTrailings n l s = s := by
  cases n with
  | zero => rfl
  | succ n => exact if_neg (by simpa using h)

theorem State.placeTrailingMarks_none {s : State} {l : LaneId} (h : ¬(s.lane l).trailing = true) :
    s.placeTrailingMarks l = s := by
  unfold State.placeTrailingMarks
  rw [State.placeTrailings_stop fun c => h c.1]
  exact if_neg h

/-- The lane after its first trailing mark has left: the list is shorter, and a late SPLICE has been counted (R61, R105). -/
theorem State.lane_trailingPlaced (s : State) (l : LaneId) (m : MarkEntry) (ms : List MarkEntry) :
    ((s.trailingPlaced l m ms).lane l) =
      if m.kind = .splice ∧ m.spanPending = true then Lane.counted { s.lane l with marks := ms } .lateSplices 1
      else { s.lane l with marks := ms } := by
  unfold State.trailingPlaced
  dsimp only
  split
  · change ((s.withLane l { s.lane l with marks := ms }).lateNoticed l m.seq).lane l = _
    unfold State.lateNoticed
    rw [State.lane_issue, State.lane_withLane_same, State.lane_withLane_same]
  · exact State.lane_withLane_same s l _

theorem State.marks_trailingPlaced (s : State) (l : LaneId) (m : MarkEntry) (ms : List MarkEntry) :
    ((s.trailingPlaced l m ms).lane l).marks = ms := by
  rw [State.lane_trailingPlaced]
  split <;> rfl

theorem State.samples_trailingPlaced (s : State) (l : LaneId) (m : MarkEntry) (ms : List MarkEntry) :
    (s.trailingPlaced l m ms).delivery.samples = s.delivery.samples ++ [.mark l m.kind m.seq m.offset m.value] := by
  unfold State.trailingPlaced
  dsimp only
  split
  · simp [State.lateNoticed]
  · rfl

/-- A trailing mark leaves into a free place, and the others follow (R105). -/
theorem State.placeTrailingMarks_step {s : State} {l : LaneId} {m : MarkEntry} {ms : List MarkEntry}
    (trailing : (s.lane l).trailing = true) (marks : (s.lane l).marks = m :: ms) (room : s.sampleRoom = true) :
    s.placeTrailingMarks l = (s.trailingPlaced l m ms).placeTrailingMarks l := by
  have step : State.placeTrailings (s.lane l).marks.length l s
      = State.placeTrailings ((s.trailingPlaced l m ms).lane l).marks.length l (s.trailingPlaced l m ms) := by
    rw [State.marks_trailingPlaced, marks, ← State.placeTrailing_eq marks]
    exact if_pos (by simp [trailing, room])
  unfold State.placeTrailingMarks
  rw [step]

/-- Without a free place the lane of a trailing mark waits (R105). -/
theorem State.placeTrailingMarks_full {s : State} {l : LaneId} (trailing : (s.lane l).trailing = true)
    (full : s.sampleRoom = false) : s.placeTrailingMarks l = s.joinWait l := by
  unfold State.placeTrailingMarks
  rw [State.placeTrailings_stop fun c => by simp [full] at c]
  exact if_pos trailing

theorem State.sampleRoom_iff (s : State) : s.sampleRoom = true ↔ s.delivery.samples.length < 32 := decide_eq_true_iff

/-! ### The drain and stall test -/

theorem Lane.workEmpty_iff (ln : Lane) : ln.workEmpty = true ↔ ln.held = [] ∧ ln.assembly = .empty ∧ ln.marks = [] := by
  have empty : ln.assembly.isEmpty = true ↔ ln.assembly = .empty := by cases ln.assembly <;> simp [Assembly.isEmpty]
  simp [Lane.workEmpty, empty, and_assoc]

/-- A lane with held work, or in which no flush is in force, stays as it is (R10, R26). -/
theorem State.settle_none {s : State} {l : LaneId}
    (h : ¬((s.lane l).workEmpty = true ∧ (s.lane l).state.isFlushing = true)) : s.settle l = s := by
  unfold State.settle
  dsimp only
  split
  · rename_i empty
    have still : ¬(s.lane l).state.isFlushing = true := fun c => h ⟨empty, c⟩
    split <;> rename_i st
    · simp [st, LaneState.isFlushing] at still
    · simp [st, LaneState.isFlushing] at still
    · simp [st, LaneState.isFlushing] at still
    all_goals rfl
  · rfl

/-- The drain toward OFF ends (R10). -/
theorem State.settle_off {s : State} {l : LaneId} (empty : (s.lane l).workEmpty = true)
    (st : (s.lane l).state = .draining .off) :
    s.settle l =
      State.issue
        { s with
          lanes := s.lanes.set l ((s.lane l).inState .off).clearedOff
          intake := s.intake.offeredAgain l }
        (noticeOf .laneIdle (some l) 0 0) := by
  unfold State.settle
  dsimp only
  rw [if_pos empty, st]
  dsimp only
  rw [State.becomeOff_resting (by rw [st]; rfl)]
  rfl

/-- The drain toward ARMED ends (R10). -/
theorem State.settle_armed {s : State} {l : LaneId} (empty : (s.lane l).workEmpty = true)
    (st : (s.lane l).state = .draining .armed) :
    s.settle l =
      State.issue
        { s with
          lanes := s.lanes.set l ((s.lane l).inState .armed)
          intake := s.intake.offeredAgain l }
        (noticeOf .laneArmed (some l) 0 0) := by
  unfold State.settle
  dsimp only
  rw [if_pos empty, st]
  dsimp only
  rw [State.changeState_staying _ _ _ (.inl (by rw [st]; rfl)), State.wake_offeredAgain]
  rfl

theorem Lane.counted_reducePhase (x : Lane) (k : ProfileId) (n : Nat) (c : LaneCounter) (i : Nat) :
    (x.reducePhase k n).counted c i = (x.counted c i).reducePhase k n := by
  by_cases same : x.hum.profile = some k <;> simp [Lane.reducePhase, Lane.counted, same]

/-- The stall pending lane becomes STALLED (R26, R38, R128). -/
theorem State.settle_stalled {s : State} {l : LaneId} (empty : (s.lane l).workEmpty = true)
    (st : (s.lane l).state = .running true) :
    s.settle l =
      State.issue
        (State.leftBy
          { s with
            lanes := s.lanes.set l (((s.lane l).counted .stalls 1).inState .stalled)
            intake := s.intake.offeredAgain l }
          l (s.lane l).hum.profile)
        (noticeOf .laneStalled (some l) ((s.lane l).expected.getD 0) 0) := by
  unfold State.settle
  dsimp only
  rw [if_pos empty, st]
  dsimp only
  rw [State.changeState_leaving _ _ _ (by rw [st]; rfl) rfl, State.wake_offeredAgain]
  unfold State.count
  rw [State.leftBy_modLane (fun x k n => x.counted_reducePhase k n .stalls 1) (fun k => rfl)]
  refine congrArg (fun u : State => (u.leftBy l _).issue _) ?_
  simp [State.modLane, State.lane, Lane.inState, Lane.counted, Lane.bump]

/-- What settles is at rest with nothing held; what does not settle stays (R10, R26). -/
theorem State.lane_settle (s : State) (l : LaneId) (empty : (s.lane l).workEmpty = true)
    (flushing : (s.lane l).state.isFlushing = true) :
    ((s.settle l).lane l).state.atRest = true ∧ ((s.settle l).lane l).held = [] ∧ ((s.settle l).lane l).assembly = .empty
      ∧ ((s.settle l).lane l).marks = [] ∧ ((s.settle l).lane l).det.runs = (s.lane l).det.runs := by
  obtain ⟨held, assembly, marks⟩ := (Lane.workEmpty_iff _).1 empty
  cases st : (s.lane l).state with
  | off | armed | stalled => simp [st, LaneState.isFlushing] at flushing
  | running p =>
    have st : (s.lane l).state = .running true := by
      rw [st] at flushing ⊢
      exact congrArg LaneState.running flushing
    rw [State.settle_stalled empty st, State.lane_issue]
    obtain ⟨h, same⟩ := State.humOnly_leftBy
      { s with
        lanes := s.lanes.set l (((s.lane l).counted .stalls 1).inState .stalled)
        intake := s.intake.offeredAgain l } l (s.lane l).hum.profile l
    rw [same, State.lane_of_set (s := s) (y := ((s.lane l).counted .stalls 1).inState .stalled) rfl]
    exact ⟨rfl, held, assembly, marks, rfl⟩
  | draining t =>
    cases t with
    | off =>
      rw [State.settle_off empty st, State.lane_issue,
        State.lane_of_set (s := s) (y := ((s.lane l).inState .off).clearedOff) rfl]
      exact ⟨rfl, held, assembly, marks, rfl⟩
    | armed =>
      rw [State.settle_armed empty st, State.lane_issue, State.lane_of_set (s := s) (y := (s.lane l).inState .armed) rfl]
      exact ⟨rfl, held, assembly, marks, rfl⟩

theorem LaneState.not_flushing_of_atRest {st : LaneState} (h : st.atRest = true) : ¬st.isFlushing = true := by
  cases st <;> simp_all [LaneState.atRest, LaneState.isFlushing]

/-- Departure has nothing to do on a lane at rest with nothing held. -/
theorem State.depart_rest {s : State} {l : LaneId} (rest : ¬(s.lane l).state.isFlushing = true) (held : (s.lane l).held = []) :
    s.depart l = s := by
  have stop : ¬(s.lane l).canDepart = true := by simp [Lane.canDepart, held]
  rw [State.depart_stop stop, State.placeTrailingMarks_none fun c => rest ((Lane.trailing_iff _).1 c).1,
    State.settle_none fun c => rest c.2]

/-! ### Settling leaves the sample queue and does not look at the wait list -/

theorem State.samples_userLeft_same (u : State) (k : Option ProfileId) :
    (u.userLeft k).delivery.samples = u.delivery.samples := by
  unfold State.userLeft State.swapIfUnused
  split
  · split
    · simp [State.swap, State.modProfile]
    · rfl
  · rfl

theorem State.samples_leftBy (u : State) (l : LaneId) (old : Option ProfileId) :
    (u.leftBy l old).delivery.samples = u.delivery.samples := by
  rw [← State.leftBy_eq]
  refine Eq.trans ?_ (u.samples_userLeft_same old)
  unfold State.checkerLoss State.checkerSearch
  dsimp only
  split
  · split
    · simp [State.setCheckerState]
    · rfl
  · rfl

theorem State.samples_settle (s : State) (l : LaneId) : (s.settle l).delivery.samples = s.delivery.samples := by
  by_cases done : (s.lane l).workEmpty = true ∧ (s.lane l).state.isFlushing = true
  · obtain ⟨empty, flushing⟩ := done
    cases st : (s.lane l).state with
    | off | armed | stalled => simp [st, LaneState.isFlushing] at flushing
    | running p =>
      have st : (s.lane l).state = .running true := by
        rw [st] at flushing ⊢
        exact congrArg LaneState.running flushing
      rw [State.settle_stalled empty st, State.delivery_issue, DeliveryPort.samples_issue, State.samples_leftBy]
    | draining t =>
      cases t with
      | off =>
        rw [State.settle_off empty st, State.delivery_issue, DeliveryPort.samples_issue]
      | armed =>
        rw [State.settle_armed empty st, State.delivery_issue, DeliveryPort.samples_issue]
  · rw [State.settle_none done]

theorem State.leftBy_waitList (u : State) (l : LaneId) (old : Option ProfileId) (w : List LaneId) :
    State.leftBy { u with waitList := w } l old = { u.leftBy l old with waitList := w } := by
  have left : State.userLeft { u with waitList := w } old = { u.userLeft old with waitList := w } := by
    unfold State.userLeft State.swapIfUnused
    split
    · change (if (u.profile _).swapPending && !u.hasUser _ then _ else _)
        = { (if (u.profile _).swapPending && !u.hasUser _ then _ else _ : State) with waitList := w }
      split <;> rfl
    · rfl
  rw [← State.leftBy_eq, ← State.leftBy_eq, left]
  unfold State.checkerLoss State.checkerSearch
  dsimp only
  split
  · split <;> rfl
  · rfl

theorem State.settle_waitList (s : State) (l : LaneId) (w : List LaneId) :
    State.settle { s with waitList := w } l = { s.settle l with waitList := w } := by
  by_cases done : (s.lane l).workEmpty = true ∧ (s.lane l).state.isFlushing = true
  · obtain ⟨empty, flushing⟩ := done
    cases st : (s.lane l).state with
    | off | armed | stalled => simp [st, LaneState.isFlushing] at flushing
    | running p =>
      have st : (s.lane l).state = .running true := by
        rw [st] at flushing ⊢
        exact congrArg LaneState.running flushing
      rw [State.settle_stalled empty st, State.settle_stalled (s := { s with waitList := w }) empty st]
      exact congrArg (fun u : State => u.issue _) (State.leftBy_waitList
        { s with
          lanes := s.lanes.set l (((s.lane l).counted .stalls 1).inState .stalled)
          intake := s.intake.offeredAgain l } l _ w)
    | draining t =>
      cases t with
      | off => rw [State.settle_off empty st, State.settle_off (s := { s with waitList := w }) empty st]; rfl
      | armed => rw [State.settle_armed empty st, State.settle_armed (s := { s with waitList := w }) empty st]; rfl
  · rw [State.settle_none done, State.settle_none (s := { s with waitList := w }) done]

/-! ### The end of a sample parcel's transmission -/

/-- The head of the sample queue has left, and is counted (R152, step 1). -/
def State.sampleSent (s : State) (rest : List OutParcel) (c : Vector Counter 12) : State :=
  { s with delivery := { s.delivery with samples := rest, transmission := .none, counters := c } }

theorem exec_transmissionEnd {s : State} (running : s.resetLine = false) :
    exec .transmissionEnd s = .next s.endTransmission := whileRunning_of_deasserted running _

/-- With a place free a new offer of a waiting head is due (R140). -/
def State.freeOffered (t : State) : State :=
  if t.delivery.samples.length < 32 then { t with intake := { t.intake with headWaiting := false } } else t

/-- The place that is left by a sample parcel goes to the wait list, and a place still free to the intake head (R104,
R140). -/
theorem State.endTransmission_sample {s : State} {p : OutParcel} {rest : List OutParcel} {c : Vector Counter 12}
    (sending : s.delivery.transmission = .sample) (samples : s.delivery.samples = p :: rest)
    (counters : c = bumpAt s.delivery.counters (match (generalizing := false) p with | .samples _ _ _ _ => 0 | .mark _ _ _ _ _ => 1) 1) :
    s.endTransmission = (s.sampleSent rest c).waitServed.freeOffered := by
  have sent : ({ s with delivery := s.delivery.endSample } : State) = s.sampleSent rest c := by
    unfold DeliveryPort.endSample State.sampleSent
    rw [samples, counters]
    cases p <;> rfl
  have offers : ∀ u : State, (if u.sampleRoom then u.wakeAny else u) = u.freeOffered := fun u => by
    unfold State.freeOffered
    simp only [State.sampleRoom_iff]
    rfl
  have ends : s.endTransmission = s.endSampleTransmission := by
    unfold State.endTransmission
    rw [sending]
  rw [ends, State.endSampleTransmission_eq, ← offers, ← sent]

/-- The end of a sample parcel's transmission with no lane waiting (R152). -/
theorem exec_sampleEnd_unserved {s : State} {p : OutParcel} {rest : List OutParcel} {c : Vector Counter 12}
    (running : s.resetLine = false) (sending : s.delivery.transmission = .sample) (samples : s.delivery.samples = p :: rest)
    (counters : c = bumpAt s.delivery.counters (match (generalizing := false) p with | .samples _ _ _ _ => 0 | .mark _ _ _ _ _ => 1) 1)
    (waiting : s.waitList = []) : exec .transmissionEnd s = .next (s.sampleSent rest c).freeOffered := by
  have unserved : (s.sampleSent rest c).waitServed = s.sampleSent rest c := by
    have none : (s.sampleSent rest c).waitList = [] := waiting
    unfold State.waitServed
    rw [none]
  rw [exec_transmissionEnd running, State.endTransmission_sample sending samples counters, unserved]

/-- The end of a sample parcel's transmission with a lane waiting (R104, R152). -/
theorem exec_sampleEnd_served {s : State} {p : OutParcel} {rest : List OutParcel} {c : Vector Counter 12} {l : LaneId}
    {ls : List LaneId} (running : s.resetLine = false) (sending : s.delivery.transmission = .sample)
    (samples : s.delivery.samples = p :: rest)
    (counters : c = bumpAt s.delivery.counters (match (generalizing := false) p with | .samples _ _ _ _ => 0 | .mark _ _ _ _ _ => 1) 1)
    (waiting : s.waitList = l :: ls) :
    exec .transmissionEnd s = .next ((s.sampleSent rest c).serveWait l).freeOffered := by
  have served : (s.sampleSent rest c).waitServed = (s.sampleSent rest c).serveWait l := by
    have first : (s.sampleSent rest c).waitList = l :: ls := waiting
    unfold State.waitServed
    rw [first]
  rw [exec_transmissionEnd running, State.endTransmission_sample sending samples counters, served]

/-- The lane at the head of the wait list has its next part placed and keeps a part (R104). -/
theorem State.serveWait_part {s : State} {l : LaneId} (part : ((s.placeNextPart l).lane l).hasPart = true) :
    s.serveWait l = s.placeNextPart l := if_pos part

/-- With its last part placed the lane leaves the list, and its departure goes on (R104). -/
theorem State.serveWait_last {s : State} {l : LaneId} (last : ¬((s.placeNextPart l).lane l).hasPart = true) :
    s.serveWait l = ((s.placeNextPart l).leaveWait l).depart l := if_neg last

theorem Lane.hasPart_iff (ln : Lane) : ln.hasPart = true ↔ (∃ b ms f, ln.assembly = .complete b ms f) ∨ ln.trailing = true := by
  cases assembly : ln.assembly <;> simp [Lane.hasPart, Assembly.canTake, assembly]

theorem State.placeNextPart_complete {s : State} {l : LaneId} {b : AssemblyBody} {ms : List MarkEntry} {f : SampleFlags}
    (h : (s.lane l).assembly = .complete b ms f) : s.placeNextPart l = (s.partsPlaced l b ms f 1).settle l := by
  unfold State.placeNextPart
  rw [h, ← State.placePart_eq h]
  rfl

theorem State.placeNextPart_trailing {s : State} {l : LaneId} {m : MarkEntry} {ms : List MarkEntry}
    (trailing : (s.lane l).trailing = true) (marks : (s.lane l).marks = m :: ms) :
    s.placeNextPart l = (s.trailingPlaced l m ms).settle l := by
  obtain ⟨_, _, empty, _⟩ := (Lane.trailing_iff _).1 trailing
  unfold State.placeNextPart
  rw [empty, if_pos (show Assembly.empty.canTake = true from rfl), if_pos trailing, State.placeTrailing_eq marks]

theorem State.waitList_settle (s : State) (l : LaneId) : (s.settle l).waitList = s.waitList := by
  have same := congrArg State.waitList (s.settle_waitList l s.waitList)
  exact same

/-- A trailing mark that leaves changes its lane in the mark list and the counters only (R61, R105). -/
theorem State.line_trailingPlaced (s : State) (l : LaneId) (m : MarkEntry) (ms : List MarkEntry) :
    ((s.trailingPlaced l m ms).lane l).state = (s.lane l).state
      ∧ ((s.trailingPlaced l m ms).lane l).held = (s.lane l).held
      ∧ ((s.trailingPlaced l m ms).lane l).assembly = (s.lane l).assembly
      ∧ (s.trailingPlaced l m ms).waitList = s.waitList := by
  have waiting : (s.trailingPlaced l m ms).waitList = s.waitList := by
    unfold State.trailingPlaced
    dsimp only
    split <;> rfl
  rw [State.lane_trailingPlaced]
  split <;> exact ⟨rfl, rfl, rfl, waiting⟩

/-- The lane at the head of the wait list is no longer in it once it leaves; a lane is in it once (R104). -/
theorem State.leaveWait_head {t : State} {l : LaneId} {ls : List LaneId} (waiting : t.waitList = l :: ls) :
    t.leaveWait l = { t with waitList := ls.filter fun m => decide (m ≠ l) } := by
  have others : (fun m : LaneId => m != l) = fun m => decide (m ≠ l) := by
    funext m
    by_cases same : m = l <;> simp [same]
  unfold State.leaveWait
  rw [waiting, others, List.filter_cons_of_neg (by simp)]

/-- Departure has nothing to do on a lane at rest that has left the wait list. -/
theorem State.depart_leaveWait {t : State} {l : LaneId} {ls : List LaneId} (waiting : t.waitList = l :: ls)
    (rest : ¬(t.lane l).state.isFlushing = true) (held : (t.lane l).held = []) :
    (t.leaveWait l).depart l = { t with waitList := ls.filter fun m => decide (m ≠ l) } := by
  rw [State.leaveWait_head waiting]
  exact State.depart_rest rest held

theorem State.depart_settled {s : State} {l : LaneId} (held : (s.lane l).held = []) (marks : (s.lane l).marks = []) :
    s.depart l = s.settle l := by
  have stop : ¬(s.lane l).canDepart = true := by simp [Lane.canDepart, held]
  rw [State.depart_stop stop, State.placeTrailingMarks_none fun trailing => ((Lane.trailing_iff _).1 trailing).2.2.2 marks]

theorem State.depart_settled_waiting {s : State} {l : LaneId} (held : (s.lane l).held = []) (marks : (s.lane l).marks = [])
    (w : List LaneId) : State.depart { s with waitList := w } l = { s.settle l with waitList := w } := by
  rw [State.depart_settled (s := { s with waitList := w }) held marks, State.settle_waitList]

/-- The lane at the head of the wait list has a part placed and keeps another one (R104). -/
theorem State.serveWait_more {s u : State} {l : LaneId} (placed : s.placeNextPart l = u.settle l)
    (part : (u.lane l).hasPart = true) : s.serveWait l = u := by
  rw [State.settle_none fun done => by
    obtain ⟨_, assembly, marks⟩ := (Lane.workEmpty_iff _).1 done.1
    rcases (Lane.hasPart_iff _).1 part with ⟨_, _, _, complete⟩ | trailing
    · rw [assembly] at complete
      contradiction
    · exact ((Lane.trailing_iff _).1 trailing).2.2.2 marks] at placed
  rw [State.serveWait_part (placed ▸ part), placed]

/-- With its last part placed the lane leaves the wait list and its departure goes on; the drain or stall test before it
makes no difference (R103, R104). -/
theorem State.serveWait_left {s u : State} {l : LaneId} {ls : List LaneId} (placed : s.placeNextPart l = u.settle l)
    (last : (u.lane l).hasPart = false) (waiting : u.waitList = l :: ls) :
    s.serveWait l = State.depart { u with waitList := ls.filter fun m => decide (m ≠ l) } l := by
  by_cases done : (u.lane l).workEmpty = true ∧ (u.lane l).state.isFlushing = true
  · obtain ⟨rest, held, assembly, _⟩ := State.lane_settle _ l done.1 done.2
    have still := LaneState.not_flushing_of_atRest rest
    have none : ¬((s.placeNextPart l).lane l).hasPart = true := by
      rw [placed]
      intro part
      rcases (Lane.hasPart_iff _).1 part with ⟨_, _, _, complete⟩ | trailing
      · simp [assembly] at complete
      · exact still ((Lane.trailing_iff _).1 trailing).1
    obtain ⟨held', _, marks'⟩ := (Lane.workEmpty_iff _).1 done.1
    rw [State.serveWait_last none, placed, State.depart_leaveWait ((u.waitList_settle l).trans waiting) still held]
    exact (State.depart_settled_waiting held' marks' _).symm
  · rw [State.settle_none done] at placed
    rw [State.serveWait_last (by rw [placed, last]; exact Bool.false_ne_true), placed, State.leaveWait_head waiting]

/-- Settles O39: trailing marks step by step, the drain and stall test by the lane's state, and the service of the wait list
by what the lane has left. -/
theorem trailingMarksLeaveAndLanesSettle : Obligations.TrailingMarksLeaveAndLanesSettle := by
  unfold Obligations.TrailingMarksLeaveAndLanesSettle
  refine ⟨?_, ?_, ?_⟩
  · rintro s l ln rfl
    refine ⟨fun others => State.placeTrailingMarks_none fun trailing => ?_, fun m ms flushing held assembly marks => ?_⟩
    · obtain ⟨flushing, held, assembly, marks⟩ := (Lane.trailing_iff _).1 trailing
      simp [flushing, held, assembly, marks] at others
    · have trailing : (s.lane l).trailing = true := (Lane.trailing_iff _).2 ⟨flushing, held, assembly, by simp [marks]⟩
      refine ⟨fun room => State.placeTrailingMarks_step trailing marks (s.sampleRoom_iff.2 room), fun full => ?_⟩
      have noRoom : s.sampleRoom = false := Bool.eq_false_iff.2 fun c => by
        have := s.sampleRoom_iff.1 c
        omega
      rw [State.placeTrailingMarks_full trailing noRoom]
      unfold State.joinWait
      by_cases listed : l ∈ s.waitList <;> simp [listed]
  · rintro s l ln rfl
    refine ⟨fun others => State.settle_none fun ⟨empty, flushing⟩ => ?_, fun held assembly marks => ?_⟩
    · obtain ⟨held, assembly, marks⟩ := (Lane.workEmpty_iff _).1 empty
      simp [flushing, held, assembly, marks] at others
    · have empty : (s.lane l).workEmpty = true := (Lane.workEmpty_iff _).2 ⟨held, assembly, marks⟩
      exact ⟨State.settle_off empty, State.settle_armed empty, State.settle_stalled empty⟩
  · rintro s d p rest c l ls ln freed running rfl sending samples short counters rfl waiting rfl flushing held
    have ends := exec_sampleEnd_served running sending samples counters waiting
    refine ⟨fun m ms assembly marks => ?_, fun b f assembly marks => ?_⟩
    · obtain ⟨state', held', assembly', waiting'⟩ := (s.sampleSent rest c).line_trailingPlaced l m ms
      have marks' := (s.sampleSent rest c).marks_trailingPlaced l m ms
      have trailing : ((s.sampleSent rest c).lane l).trailing = true :=
        (Lane.trailing_iff _).2 ⟨flushing, held, assembly, fun none => List.cons_ne_nil m ms (marks.symm.trans none)⟩
      have next := State.placeNextPart_trailing trailing marks
      have queue : ((s.sampleSent rest c).trailingPlaced l m ms).delivery.samples.length = rest.length + 1 := by
        rw [State.samples_trailingPlaced, List.length_append]
        rfl
      have more : (((s.sampleSent rest c).trailingPlaced l m ms).lane l).hasPart = true ↔ ms ≠ [] := by
        rw [Lane.hasPart_iff, Lane.trailing_iff, state', held', assembly', marks']
        constructor
        · rintro (⟨_, _, _, complete⟩ | ⟨_, _, _, some⟩)
          · exact absurd (assembly.symm.trans complete) (by simp)
          · exact some
        · exact fun some => .inr ⟨flushing, held, assembly, some⟩
      refine ⟨fun some => ?_, fun last => ?_⟩
      · rw [ends, State.serveWait_more next (more.2 some)]
        unfold State.freeOffered
        rw [queue]
        rfl
      · rw [ends, State.serveWait_left next (Bool.eq_false_of_not_eq_true fun part => more.1 part last)
          (waiting'.trans waiting), State.depart_settled_waiting (held'.trans held) (marks'.trans last)]
        unfold State.freeOffered
        dsimp only
        rw [State.samples_settle, queue]
        rfl
    · have next := State.placeNextPart_complete (s := s.sampleSent rest c) (l := l) assembly
      have after : ((s.sampleSent rest c).partsPlaced l b [] f 1).lane l = { s.lane l with assembly := .empty } :=
        State.lane_of_set (s := s.sampleSent rest c) rfl
      have part : (((s.sampleSent rest c).partsPlaced l b [] f 1).lane l).hasPart = true := by
        rw [after]
        exact (Lane.hasPart_iff _).2 (.inr ((Lane.trailing_iff _).2 ⟨flushing, held, rfl, marks⟩))
      have queue : ((s.sampleSent rest c).partsPlaced l b [] f 1).delivery.samples.length = rest.length + 1 := by
        simp [State.partsPlaced, AssemblyBody.parts, State.sampleSent]
      rw [ends, State.serveWait_more next part]
      unfold State.freeOffered
      rw [queue]
      refine congrArg Host.Outcome.next ?_
      by_cases free : rest.length + 1 < 32
      · rw [if_pos free, if_pos free]
        rfl
      · rw [if_neg free, if_neg free]
        rfl

/-! ### The starts of transmissions, and the ends of messages -/

/-- The delivery port sends the head of the message queue before that of the sample queue (R151). -/
theorem DeliveryPort.start_eq {d : DeliveryPort} (up : d.link = .up) (idle : d.transmission = .none) :
    d.start =
      if d.messages ≠ [] then { d with transmission := .message }
      else if d.samples ≠ [] ∧ d.pace = .go then { d with transmission := .sample }
      else d := by
  cases messages : d.messages <;> cases samples : d.samples <;> cases pace : d.pace <;>
    simp [DeliveryPort.start, DeliveryPort.canStart, up, idle, messages, samples, pace]

theorem exec_transmissionStart {s : State} (running : s.resetLine = false) :
    exec .transmissionStart s = .next { s with delivery := s.delivery.start } :=
  whileRunning_of_deasserted running (fun s : State => { s with delivery := s.delivery.start })

/-- The head of the message queue leaves, and a commit that was pending takes its place (R152, R157). -/
theorem DeliveryPort.endMessage_eq {d : DeliveryPort} {m : Message} {rest : List Message} (messages : d.messages = m :: rest) :
    d.endMessage =
      { d with
        messages := rest ++ (if d.commitPending = true then [.notice d.lossFlag d.batch] else [])
        transmission := .none
        batch := if d.commitPending = true then [] else d.batch
        timer := if d.commitPending = true then { remaining := 0, counting := false } else d.timer
        lossFlag := if d.commitPending = true then false else d.lossFlag
        commitPending := false
        counters := bumpAt d.counters (match (generalizing := false) m with | .reply _ _ _ _ => 2 | .notice _ _ => 3) 1 } := by
  unfold DeliveryPort.endMessage
  rw [messages]
  cases pending : d.commitPending <;> cases m <;>
    simp [DeliveryPort.bump, DeliveryPort.commit, Message.counter, DeliveryCounter.place, Timer.idle]

theorem exec_messageEnd {s : State} (running : s.resetLine = false) (sending : s.delivery.transmission = .message) :
    exec .transmissionEnd s = .next { s with delivery := s.delivery.endMessage } := by
  rw [exec_transmissionEnd running]
  unfold State.endTransmission
  rw [sending]

/-- Settles O34: the start by the two queues, the end of a message with the pending commit, and the end of a sample parcel by
the lane at the head of the wait list. -/
theorem transmissionsStartAndFreeAPlace : Obligations.TransmissionsStartAndFreeAPlace := by
  unfold Obligations.TransmissionsStartAndFreeAPlace
  refine ⟨fun s running up idle => ?_, ?_⟩
  · rw [exec_transmissionStart running, DeliveryPort.start_eq up idle]
    refine ⟨fun messages => ?_, fun messages samples pace => ?_, fun messages pace => ?_⟩
    · rw [if_pos messages]
    · rw [if_neg (by simp [messages]), if_pos ⟨samples, pace⟩]
    · rw [if_neg (by simp [messages]), if_neg (by simp [pace])]
  · rintro s d running rfl
    refine ⟨fun m rest sending messages => ?_, fun p rest c sending samples short counters => ⟨fun waiting => ?_, ?_, ?_⟩⟩
    · exact (exec_messageEnd running sending).trans
        (congrArg (fun d => Host.Outcome.next { s with delivery := d }) (DeliveryPort.endMessage_eq messages))
    · rw [exec_sampleEnd_unserved running sending samples counters waiting]
      exact congrArg Host.Outcome.next (if_pos short)
    · intro l ls b m ms f waiting assembly
      have next := State.placeNextPart_complete (s := s.sampleSent rest c) (l := l) assembly
      have after : ((s.sampleSent rest c).partsPlaced l b (m :: ms) f 1).lane l
          = { s.lane l with assembly := .complete b ms f } := by
        rw [State.lane_of_set (s := s.sampleSent rest c) rfl]
        simp [AssemblyBody.leftOf, State.sampleSent, State.lane]
      have part : (((s.sampleSent rest c).partsPlaced l b (m :: ms) f 1).lane l).hasPart = true := by
        rw [after]
        exact (Lane.hasPart_iff _).2 (.inl ⟨b, ms, f, rfl⟩)
      rw [exec_sampleEnd_served running sending samples counters waiting, State.serveWait_more next part]
      by_cases free : rest.length + 1 < 32 <;>
        simp [State.freeOffered, State.partsPlaced, State.sampleSent, AssemblyBody.parts, AssemblyBody.leftOf,
          MarkEntry.parcel, State.lane, IntakePort.offeredAgain, free]
    · intro l ls b f waiting assembly others
      have next := State.placeNextPart_complete (s := s.sampleSent rest c) (l := l) assembly
      have after : ((s.sampleSent rest c).partsPlaced l b [] f 1).lane l = { s.lane l with assembly := .empty } :=
        State.lane_of_set (s := s.sampleSent rest c) rfl
      have last : (((s.sampleSent rest c).partsPlaced l b [] f 1).lane l).hasPart = false := by
        rw [after]
        refine Bool.eq_false_of_not_eq_true fun part => ?_
        rcases (Lane.hasPart_iff _).1 part with ⟨_, _, _, complete⟩ | trailing
        · simp at complete
        · obtain ⟨flushing, held, _, marks⟩ := (Lane.trailing_iff _).1 trailing
          rcases others with still | more | unmarked
          · exact Bool.false_ne_true (still.symm.trans flushing)
          · exact more held
          · exact marks unmarked
      rw [exec_sampleEnd_served running sending samples counters waiting, State.serveWait_left next last waiting]
      refine congrArg (fun u : State => Host.Outcome.next (State.depart u l).freeOffered) ?_
      rfl

end Sys2Proof.Machine
end

section
/-! The laws on the repair unit do not carry themselves (R80): a record of `WorkLaws` that the part cannot reach. -/

namespace Sys2Proof.Machine

/-! ### An open run whose samples have departed -/

/-- A run that is still OPEN although its one sample has departed. In the part the departure would have overtaken it (R79),
but the laws on a run list let an OPEN run lie before the head. -/
def passedRun : RunRecord where
  number := 0
  causes := { Causes.none with detected := true }
  first := 0
  last := 0
  growing := true
  state := .opened
  leftAnchor := some 0
  rightAnchor := none
  firstSeq := 4

/-- A RUNNING lane on route RESTORE with nothing held, one calm sample from the close of its run. -/
def passedLane : Lane :=
  { Lane.powerOn with
    state := .running false
    allocation := Lane.powerOn.config.allocation
    config := { Lane.powerOn.config with quietCount := 1 }
    nextPosition := 1
    det := { Detector.powerOn with runs := [passedRun] } }

/-- The part with a calm parcel of one sample offered to that lane. -/
def passedRunOffered : State :=
  { State.reset with
    lanes := State.reset.lanes.set 0 passedLane
    intake := { IntakePort.powerOn with queue := [.samples 0 5 [0]] }
    pending := [.offer] }

theorem workLaws_passedRunOffered : WorkLaws passedRunOffered :=
  ⟨by decide +kernel, by decide +kernel, by decide +kernel, by decide +kernel, by decide +kernel, by decide +kernel,
    by decide +kernel⟩

/-- The close puts the run into the repair queue, and the release test of the same event takes its record away. -/
theorem step_passedRunOffered :
    ∃ t, step passedRunOffered = .next t ∧ t.repair.queue = [{ lane := 0, run := 0 }] ∧ (t.lane 0).det.runs = [] :=
  ⟨_, rfl, by decide +kernel, by decide +kernel⟩

/-- Refutes O59: `WorkLaws` admits an OPEN run that lies before the head of the hold line. At its close the run is queued for
repair (R56) and, its last sample having departed, released in the same event (R90), so its entry names no run. -/
theorem not_stepsKeepTheRepairLaw : ¬ Obligations.StepsKeepTheRepairLaw := by
  intro keeps
  obtain ⟨t, stepped, queue, runs⟩ := step_passedRunOffered
  obtain ⟨-, -, queued, -⟩ := keeps passedRunOffered t workLaws_passedRunOffered stepped
  have listed := queued { lane := 0, run := 0 } (by simp [queue])
  simp [Lane.runsIn, runs] at listed

end Sys2Proof.Machine
end

section
/-! The laws of a run list (R47, R51, R52, R56), and what the changes of a detector make of them. -/

namespace Sys2Proof.Machine

/-! ### A sound detector -/

/-- A record's state and growing agree, and a run on its way through the repair unit has both anchors (R51, R56, R82). -/
def RunRecord.anchored (r : RunRecord) : Bool :=
  match r.state with
  | .opened => r.growing
  | .queued => !r.growing && r.leftAnchor.isSome && r.rightAnchor.isSome
  | .repairing => !r.growing && r.leftAnchor.isSome && r.rightAnchor.isSome
  | .repaired => !r.growing
  | .unrepaired _ => true

/-- The record is growing or has its last position still held (R90). -/
def RunRecord.stays (r : RunRecord) (head : Nat) : Prop := r.growing = true ∨ head ≤ r.last

theorem RunRecord.lawful_iff (r : RunRecord) (head : Nat) : r.lawful head = true ↔ r.anchored = true ∧ r.stays head := by
  unfold RunRecord.lawful RunRecord.stays
  rw [Bool.and_eq_true, Bool.or_eq_true, decide_eq_true_eq]
  exact Iff.rfl

/-- The laws of the run list and of the calm count, whatever has departed: the numbers differ, the records are in order of
position and end before `next`, and only the last may be growing. -/
structure Detector.Sound (next : Nat) (d : Detector) : Prop where
  once : (d.runs.map RunRecord.number).Nodup
  bounds : ∀ r ∈ d.runs, r.first ≤ r.last ∧ r.last < next
  apart : d.runs.Pairwise fun a b => a.last < b.first ∧ a.growing = false
  anchored : ∀ r ∈ d.runs, r.anchored = true
  calm : (∃ r ∈ d.runs, r.state = .opened) → 0 < d.calmCount → d.calmStart.isSome = true

theorem runsOrdered_iff (next : Nat) : ∀ rs : List RunRecord,
    runsOrdered next rs = true ↔
      (∀ r ∈ rs, r.first ≤ r.last ∧ r.last < next) ∧ rs.Pairwise fun a b => a.last < b.first ∧ a.growing = false
  | [] => by simp [runsOrdered]
  | [r] => by simp [runsOrdered]
  | r :: q :: rest => by
    have tail := runsOrdered_iff next (q :: rest)
    have unfolded : runsOrdered next (r :: q :: rest) = true ↔
        (r.first ≤ r.last ∧ r.last < next) ∧ (r.last < q.first ∧ r.growing = false) ∧ runsOrdered next (q :: rest) = true := by
      simp [runsOrdered, and_assoc]
    rw [unfolded, tail, List.forall_mem_cons (a := r), List.pairwise_cons (a := r)]
    constructor
    · rintro ⟨own, near, bounds, apart⟩
      refine ⟨⟨own, bounds⟩, fun b hb => ⟨?_, near.2⟩, apart⟩
      rcases List.mem_cons.1 hb with rfl | later
      · exact near.1
      · have gap := (List.rel_of_pairwise_cons apart later).1
        have length := (bounds q (.head _)).1
        omega
    · rintro ⟨⟨own, bounds⟩, near, apart⟩
      exact ⟨own, near q (.head _), bounds, apart⟩

section
variable {next : Nat} {d : Detector}

theorem Detector.Sound.of_same (h : d.Sound next) {e : Detector} (runs : e.runs = d.runs)
    (calm : e.calmCount = d.calmCount ∧ e.calmStart = d.calmStart ∨ e.calmCount = 0) : e.Sound next where
  once := by rw [runs]; exact h.once
  bounds := by rw [runs]; exact h.bounds
  apart := by rw [runs]; exact h.apart
  anchored := by rw [runs]; exact h.anchored
  calm := by
    rw [runs]
    rcases calm with ⟨count, start⟩ | zero
    · rw [count, start]
      exact h.calm
    · rw [zero]
      exact fun _ c => absurd c (Nat.lt_irrefl 0)

theorem Detector.Sound.mono (h : d.Sound next) {later : Nat} (le : next ≤ later) : d.Sound later :=
  { h with bounds := fun r hr => ⟨(h.bounds r hr).1, Nat.lt_of_lt_of_le (h.bounds r hr).2 le⟩ }

/-- Records that are released leave the laws (R90). -/
theorem Detector.Sound.filter (h : d.Sound next) (p : RunRecord → Bool) :
    ({ d with runs := d.runs.filter p } : Detector).Sound next where
  once := h.once.sublist (List.filter_sublist.map _)
  bounds r hr := h.bounds r (List.mem_of_mem_filter hr)
  apart := h.apart.filter p
  anchored r hr := h.anchored r (List.mem_of_mem_filter hr)
  calm := fun ⟨r, hr, opened⟩ => h.calm ⟨r, List.mem_of_mem_filter hr, opened⟩

/-- A change of the records that keeps their places, lets none grow and opens none leaves the laws. -/
theorem Detector.Sound.map (h : d.Sound next) {e : Detector} {f : RunRecord → RunRecord} (runs : e.runs = d.runs.map f)
    (calm : e.calmCount = d.calmCount ∧ e.calmStart = d.calmStart ∨ e.calmCount = 0)
    (number : ∀ r, (f r).number = r.number) (place : ∀ r, (f r).first = r.first ∧ (f r).last = r.last)
    (growing : ∀ r, r.growing = false → (f r).growing = false) (anchored : ∀ r ∈ d.runs, (f r).anchored = true)
    (opened : ∀ r, (f r).state = .opened → r.state = .opened) : e.Sound next where
  once := by
    rw [runs, List.map_map]
    exact (List.map_congr_left fun r _ => number r : _ = d.runs.map RunRecord.number) ▸ h.once
  bounds := by
    rw [runs, List.forall_mem_map]
    intro r hr
    rw [(place r).1, (place r).2]
    exact h.bounds r hr
  apart := by
    rw [runs]
    refine List.Pairwise.map f (fun a b ⟨gap, still⟩ => ⟨?_, growing a still⟩) h.apart
    rw [(place a).2, (place b).1]
    exact gap
  anchored := by
    rw [runs, List.forall_mem_map]
    exact anchored
  calm := by
    rintro ⟨r, hr, isOpen⟩
    rw [runs] at hr
    obtain ⟨q, hq, rfl⟩ := List.mem_map.1 hr
    rcases calm with ⟨count, start⟩ | zero
    · rw [count, start]
      exact h.calm ⟨q, hq, opened q isOpen⟩
    · rw [zero]
      exact fun c => absurd c (Nat.lt_irrefl 0)

/-! ### The latest record -/

theorem Detector.latest?_eq_some {d : Detector} {r : RunRecord} (h : d.latest? = some r) :
    d.runs = d.runs.dropLast ++ [r] := (List.dropLast_append_getLast? r h).symm

theorem Detector.openRun?_eq_some {d : Detector} {r : RunRecord} :
    d.openRun? = some r ↔ d.latest? = some r ∧ r.growing = true := by
  unfold Detector.openRun?
  cases d.latest? with
  | none => simp
  | some q =>
    cases growing : q.growing with
    | true =>
      simp only [growing, if_true, Option.some_inj]
      exact ⟨fun same => ⟨same, same ▸ growing⟩, And.left⟩
    | false =>
      simp only [growing, Bool.false_eq_true, if_false, reduceCtorEq, Option.some_inj, false_iff, not_and]
      rintro rfl
      rw [growing]
      exact Bool.false_ne_true

/-- A change of the record at the tail, by its number (R54, R55, R79). -/
theorem Detector.Sound.modRun_latest (h : d.Sound next) {r : RunRecord} (latest : d.latest? = some r)
    (f : RunRecord → RunRecord) : (d.modRun r.number f).runs = d.runs.dropLast ++ [f r] := by
  have split := Detector.latest?_eq_some latest
  have others : ∀ q ∈ d.runs.dropLast, q.number ≠ r.number := by
    have once := h.once
    rw [split, List.map_append, List.nodup_append] at once
    exact fun q hq => once.2.2 _ (List.mem_map_of_mem hq) _ (by simp)
  unfold Detector.modRun
  dsimp only
  rw [split, List.map_append, List.map_singleton, if_pos rfl, List.dropLast_concat]
  refine congrArg (· ++ [f r]) ?_
  conv_rhs => rw [← List.map_id d.runs.dropLast]
  exact List.map_congr_left fun q hq => if_neg (others q hq)

/-- All records but the latest have stopped growing (R47). -/
theorem Detector.Sound.earlier (h : d.Sound next) {r : RunRecord} (latest : d.latest? = some r) :
    ∀ q ∈ d.runs.dropLast, q.last < r.first ∧ q.growing = false := by
  have apart := h.apart
  rw [Detector.latest?_eq_some latest, List.pairwise_append] at apart
  exact fun q hq => apart.2.2 q hq r (.head _)

theorem RunRecord.anchored_opened {r : RunRecord} (h : r.anchored = true) (opened : r.state = .opened) :
    r.growing = true := by
  unfold RunRecord.anchored at h
  rwa [opened] at h

/-- The latest record may take another extent, as long as it keeps its number and its first position. -/
theorem Detector.Sound.replaceLatest (h : d.Sound next) {r : RunRecord} (latest : d.latest? = some r) {later : Nat}
    (le : next ≤ later) {e : Detector} {q : RunRecord} (runs : e.runs = d.runs.dropLast ++ [q]) (number : q.number = r.number)
    (first : q.first = r.first) (bounds : q.first ≤ q.last ∧ q.last < later) (anchored : q.anchored = true)
    (calm : q.state = .opened → 0 < e.calmCount → e.calmStart.isSome = true) : e.Sound later := by
  have split := Detector.latest?_eq_some latest
  have earlier := h.earlier latest
  have old : ∀ x ∈ d.runs.dropLast, x ∈ d.runs := fun x hx => List.mem_of_mem_dropLast hx
  constructor
  · have same : e.runs.map RunRecord.number = d.runs.map RunRecord.number := by
      rw [runs]
      conv_rhs => rw [split]
      simp [number]
    rw [same]
    exact h.once
  · rw [runs, List.forall_mem_append, List.forall_mem_singleton]
    exact ⟨fun x hx => ⟨(h.bounds x (old x hx)).1, Nat.lt_of_lt_of_le (h.bounds x (old x hx)).2 le⟩, bounds⟩
  · rw [runs, List.pairwise_append]
    refine ⟨h.apart.sublist (List.dropLast_sublist _), List.pairwise_singleton _ _, fun x hx y hy => ?_⟩
    rw [List.mem_singleton.1 hy, first]
    exact earlier x hx
  · rw [runs, List.forall_mem_append, List.forall_mem_singleton]
    exact ⟨fun x hx => h.anchored x (old x hx), anchored⟩
  · rintro ⟨x, hx, opened⟩
    rw [runs] at hx
    rcases List.mem_append.1 hx with hx | hx
    · have growing := RunRecord.anchored_opened (h.anchored x (old x hx)) opened
      rw [(earlier x hx).2] at growing
      contradiction
    · rw [List.mem_singleton.1 hx] at opened
      exact calm opened

/-- A run that opens behind all others (R53). -/
theorem Detector.Sound.append (h : d.Sound next) (still : ∀ q ∈ d.runs, q.growing = false) {r : RunRecord}
    (number : r.number ∉ d.runs.map RunRecord.number) (place : r.first = next ∧ r.last = next) (anchored : r.anchored = true)
    {e : Detector} (runs : e.runs = d.runs ++ [r]) (calm : e.calmCount = 0) : e.Sound (next + 1) where
  once := by
    rw [runs, List.map_append]
    exact List.nodup_append.2 ⟨h.once, List.nodup_singleton _, fun a ha b hb => by
      rintro rfl
      exact number (List.mem_singleton.1 hb ▸ ha)⟩
  bounds := by
    rw [runs, List.forall_mem_append, List.forall_mem_singleton]
    refine ⟨fun x hx => ⟨(h.bounds x hx).1, Nat.lt_succ_of_lt (h.bounds x hx).2⟩, ?_⟩
    omega
  apart := by
    rw [runs, List.pairwise_append]
    refine ⟨h.apart, List.pairwise_singleton _ _, fun x hx y hy => ⟨?_, still x hx⟩⟩
    rw [List.mem_singleton.1 hy, place.1]
    exact (h.bounds x hx).2
  anchored := by
    rw [runs, List.forall_mem_append, List.forall_mem_singleton]
    exact ⟨h.anchored, anchored⟩
  calm := by
    rw [calm]
    exact fun _ c => absurd c (Nat.lt_irrefl 0)

/-- A latest record that does not grow: no record grows. -/
theorem Detector.Sound.still (h : d.Sound next) (none : d.openRun? = none) : ∀ q ∈ d.runs, q.growing = false := by
  intro q hq
  cases latest : d.latest? with
  | none =>
    rw [List.getLast?_eq_none_iff.1 latest] at hq
    contradiction
  | some r =>
    rw [Detector.latest?_eq_some latest] at hq
    rcases List.mem_append.1 hq with hq | hq
    · exact (h.earlier latest q hq).2
    · rw [List.mem_singleton.1 hq]
      refine Bool.eq_false_of_not_eq_true fun growing => ?_
      rw [Detector.openRun?_eq_some.2 ⟨latest, growing⟩] at none
      contradiction

end

end Sys2Proof.Machine
end

section
/-! The detector's step on one sample keeps the laws of the run list (R47 to R57, R90). -/

namespace Sys2Proof.Machine

/-! ### Changes of the records in place -/

section
variable {next : Nat} {d : Detector}

theorem RunRecord.anchored_cut {r : RunRecord} (h : r.anchored = true) : r.cut.anchored = true := by
  unfold RunRecord.anchored at h
  unfold RunRecord.cut RunRecord.anchored
  cases state : r.state <;> cases growing : r.growing <;> simp_all

theorem RunRecord.growing_cut (r : RunRecord) : r.cut.growing = false := by
  unfold RunRecord.cut
  cases growing : r.growing
  · simp [growing]
  · simp

/-- A cut ends the growing of every run (R57). -/
theorem Detector.Sound.cut (h : d.Sound next) : d.cut.Sound next := by
  have place : ∀ r : RunRecord, r.cut.first = r.first ∧ r.cut.last = r.last := fun r => by
    unfold RunRecord.cut
    split <;> exact ⟨rfl, rfl⟩
  refine h.map (f := RunRecord.cut) rfl (.inr rfl) RunRecord.number_cut place (fun r _ => r.growing_cut)
    (fun r hr => RunRecord.anchored_cut (h.anchored r hr)) fun r opened => ?_
  unfold RunRecord.cut at opened
  split at opened
  · dsimp only at opened
    split at opened
    · contradiction
    · contradiction
  · exact opened

theorem Detector.growing_cut (d : Detector) : ∀ r ∈ d.cut.runs, r.growing = false := by
  unfold Detector.cut
  simp only [List.forall_mem_map]
  exact fun r _ => r.growing_cut

/-- The records with one number take another state or other marks (R59, R82, R84, R86). -/
theorem Detector.Sound.modRun (h : d.Sound next) (n : Nat) {f : RunRecord → RunRecord}
    (number : ∀ r, (f r).number = r.number) (place : ∀ r, (f r).first = r.first ∧ (f r).last = r.last)
    (growing : ∀ r, r.growing = false → (f r).growing = false)
    (anchored : ∀ r ∈ d.runs, r.number = n → (f r).anchored = true)
    (opened : ∀ r, (f r).state = .opened → r.state = .opened) : (d.modRun n f).Sound next := by
  refine h.map (f := fun r => if r.number = n then f r else r) rfl (.inl ⟨rfl, rfl⟩) (fun r => ?_) (fun r => ?_) (fun r => ?_)
    (fun r hr => ?_) fun r => ?_
  · split
    · exact number r
    · rfl
  · split
    · exact place r
    · exact ⟨rfl, rfl⟩
  · split
    · exact growing r
    · exact id
  · split
    · rename_i same
      exact anchored r hr same
    · exact h.anchored r hr
  · split
    · exact opened r
    · exact id

theorem Detector.Sound.beginSpan (h : d.Sound next) (cs : Causes) (n : Nat) : (d.beginSpan cs n).Sound next := by
  have marked : ∀ e : Detector, e.Sound next → ∀ k, (e.modRun k fun r => { r with causes := r.causes.join cs }).Sound next :=
    fun e sound k => sound.modRun k (fun _ => rfl) (fun _ => ⟨rfl, rfl⟩) (fun _ => id) (fun r hr _ => sound.anchored r hr) fun _ => id
  have forced : ({ d with
      forcedRemainder := max d.forcedRemainder n, forcedCauses := d.forcedCauses.join cs } : Detector).Sound next :=
    h.of_same rfl (.inl ⟨rfl, rfl⟩)
  unfold Detector.beginSpan
  split
  · exact h
  · dsimp only
    split
    · exact marked _ forced _
    · exact forced

theorem Detector.Sound.beginSpans (h : d.Sound next) (spans : List (Causes × Nat)) : (d.beginSpans spans).Sound next := by
  unfold Detector.beginSpans
  induction spans generalizing d with
  | nil => exact h
  | cons x xs ih => exact ih (h.beginSpan x.1 x.2)

theorem Detector.Sound.resetCalm (h : d.Sound next) : d.resetCalm.Sound next := h.of_same rfl (.inr rfl)

theorem Detector.Sound.spendForced (h : d.Sound next) : d.spendForced.Sound next := h.of_same rfl (.inl ⟨rfl, rfl⟩)

theorem Detector.Sound.remember (h : d.Sound next) (v : Sample) : (d.remember v).Sound next := h.of_same rfl (.inl ⟨rfl, rfl⟩)

theorem Detector.Sound.clearHistory (h : d.Sound next) : d.clearHistory.Sound next := h.of_same rfl (.inl ⟨rfl, rfl⟩)

end

/-! ### Which records stay -/

/-- The hold line holds on to every record (R90). -/
def Detector.AllStay (d : Detector) (head : Nat) : Prop := ∀ r ∈ d.runs, r.stays head

theorem Detector.AllStay.modRun {d : Detector} {head : Nat} (h : d.AllStay head) (n : Nat) {f : RunRecord → RunRecord}
    (stays : ∀ r, r.stays head → (f r).stays head) : (d.modRun n f).AllStay head := by
  unfold Detector.AllStay Detector.modRun
  simp only [List.forall_mem_map]
  intro r hr
  split
  · exact stays r (h r hr)
  · exact h r hr

theorem Detector.AllStay.beginSpan {d : Detector} {head : Nat} (h : d.AllStay head) (cs : Causes) (n : Nat) :
    (d.beginSpan cs n).AllStay head := by
  unfold Detector.beginSpan
  split
  · exact h
  · dsimp only
    split
    · exact Detector.AllStay.modRun (d := { d with forcedRemainder := _, forcedCauses := _ }) h _ fun _ => id
    · exact h

theorem Detector.AllStay.beginSpans {d : Detector} {head : Nat} (h : d.AllStay head) (spans : List (Causes × Nat)) :
    (d.beginSpans spans).AllStay head := by
  unfold Detector.beginSpans
  induction spans generalizing d with
  | nil => exact h
  | cons x xs ih => exact ih (h.beginSpan x.1 x.2)

/-! ### The steps of the detector on its lane -/

/-- The lane y is the lane x with other counters and a detector whose laws hold up to the position `next`, its records all
in the hold line. -/
def Lane.DetAfter (next : Nat) (x y : Lane) : Prop :=
  ∃ d c, y = { x with det := d, counters := c } ∧ d.Sound next ∧ d.AllStay x.headPosition

theorem Lane.DetAfter.modDet {next later : Nat} {x : Lane} {s : State} {l : LaneId} (h : x.DetAfter next (s.lane l))
    (f : Detector → Detector) (sound : ∀ d : Detector, d.Sound next → (f d).Sound later)
    (stay : ∀ d : Detector, d.AllStay x.headPosition → (f d).AllStay x.headPosition) :
    x.DetAfter later ((s.modDet l f).lane l) := by
  obtain ⟨d, c, lane, isSound, allStay⟩ := h
  refine ⟨f d, c, ?_, sound d isSound, stay d allStay⟩
  unfold State.modDet
  rw [State.lane_modLane_same, lane]

theorem Lane.DetAfter.trans {next later : Nat} {x y z : Lane} (h : x.DetAfter next y) (k : y.DetAfter later z) :
    x.DetAfter later z := by
  obtain ⟨d, c, rfl, _⟩ := h
  obtain ⟨e, b, rfl, sound, stay⟩ := k
  exact ⟨e, b, rfl, sound, stay⟩

/-- What the release test leaves of the lane (R90). -/
theorem State.lane_releaseRuns (s : State) (l : LaneId) :
    ∃ c, (s.releaseRuns l).lane l =
      { s.lane l with
        det := { (s.lane l).det with runs := (s.lane l).det.runs.filter fun r => !r.released (s.lane l).headPosition }
        counters := c } := by
  have reports : ∀ (rs : List RunRecord) (u : State),
      ∃ c, ((rs.foldl (fun t r => t.reportRelease l r) u).lane l) = { u.lane l with counters := c } := by
    intro rs
    induction rs with
    | nil => exact fun u => ⟨_, rfl⟩
    | cons r rs ih =>
      intro u
      obtain ⟨c, rest⟩ := ih (u.reportRelease l r)
      rw [List.foldl_cons, rest]
      have one : ∃ a, (u.reportRelease l r).lane l = { u.lane l with counters := a } := by
        unfold State.reportRelease
        split
        · exact ⟨_, State.lane_count_same u l _ 1⟩
        · exact ⟨_, State.lane_count_same u l _ 1⟩
        all_goals exact ⟨_, rfl⟩
      obtain ⟨a, one⟩ := one
      rw [one]
      exact ⟨c, rfl⟩
  unfold State.releaseRuns
  dsimp only
  split
  · rename_i none
    rw [List.isEmpty_iff, List.filter_eq_nil_iff] at none
    have whole : ((s.lane l).det.runs.filter fun r => !r.released (s.lane l).headPosition) = (s.lane l).det.runs :=
      List.filter_eq_self.2 fun r hr => by simpa using none r hr
    rw [whole]
    exact ⟨(s.lane l).counters, rfl⟩
  · obtain ⟨c, left⟩ := reports ((s.lane l).det.runs.filter fun r => r.released (s.lane l).headPosition)
      { s.modDet l fun d => { d with runs := d.runs.filter fun r => !r.released (s.lane l).headPosition } with
        fullNoticed := false }
    refine ⟨c, left.trans ?_⟩
    change ({ (s.modDet l fun d =>
      { d with runs := d.runs.filter fun r => !r.released (s.lane l).headPosition }).lane l with counters := c } : Lane) = _
    unfold State.modDet
    rw [State.lane_modLane_same]

theorem RunRecord.released_iff (r : RunRecord) (head : Nat) : (!r.released head) = true ↔ r.stays head := by
  unfold RunRecord.released RunRecord.stays
  cases r.growing <;> simp

/-- After the release test every record is one the hold line holds on to (R90). -/
theorem State.detAfter_releaseRuns {s : State} {l : LaneId} {next : Nat} (sound : (s.lane l).det.Sound next) :
    (s.lane l).DetAfter next ((s.releaseRuns l).lane l) := by
  obtain ⟨c, left⟩ := s.lane_releaseRuns l
  rw [left]
  exact ⟨_, c, rfl, sound.filter _, fun r hr => (r.released_iff _).1 (List.mem_filter.1 hr).2⟩

theorem State.detAfter_missRun {s : State} {l : LaneId} {next : Nat} (sound : (s.lane l).det.Sound next)
    (stay : (s.lane l).det.AllStay (s.lane l).headPosition) (seq : SeqNum) :
    (s.lane l).DetAfter next ((s.missRun l seq).lane l) := by
  have counted : (s.missRun l seq).lane l = (s.lane l).bump .runsMissed 1 := by
    unfold State.missRun
    dsimp only
    split
    · exact State.lane_count_same s l _ 1
    · exact State.lane_count_same s l _ 1
  rw [counted]
  exact ⟨_, _, rfl, sound, stay⟩

theorem State.freeRun?_fresh {s : State} {n : Nat} (h : s.freeRun? = some n) (l : LaneId) :
    n ∉ (s.lane l).det.runs.map RunRecord.number := fun used =>
  (State.freeRun?_eq_some h).2 (State.mem_usedRuns.2 ⟨l, used⟩)

section
variable {s : State} {l : LaneId} (sound : (s.lane l).det.Sound (s.lane l).nextPosition)
  (stay : (s.lane l).det.AllStay (s.lane l).headPosition)
include sound stay

/-- A run opens at the next position in a free record (R53, R65). -/
theorem State.detAfter_openNewRun (none : (s.lane l).det.openRun? = none) (seq : SeqNum) (cs : Causes) :
    (s.lane l).DetAfter ((s.lane l).nextPosition + 1) ((s.openNewRun l seq cs).lane l) := by
  unfold State.openNewRun
  split
  · rename_i n free
    dsimp only
    unfold State.modDet
    rw [State.lane_modLane_same]
    refine ⟨_, _, rfl, sound.append (sound.still none) (r := newRun (s.lane l).det n (s.lane l).nextPosition cs seq)
      (State.freeRun?_fresh free l) ⟨rfl, rfl⟩ rfl rfl rfl, fun r hr => ?_⟩
    rcases List.mem_append.1 hr with old | new
    · exact stay r old
    · rw [List.mem_singleton.1 new]
      exact .inl rfl
  · exact State.detAfter_missRun (sound.mono (Nat.le_succ _)) stay seq

end

/-- A record that grows keeps its number, its first position and its growing, and ends at x (R55). -/
theorem RunRecord.grow_place (r : RunRecord) (limit x : Nat) (cs : Causes) :
    (r.grow limit x cs).first = r.first ∧ (r.grow limit x cs).last = x ∧ (r.grow limit x cs).growing = r.growing := by
  unfold RunRecord.grow
  dsimp only
  split <;> exact ⟨rfl, rfl, rfl⟩

/-- A growing record is OPEN or UNREPAIRED (R51, R55). -/
theorem RunRecord.anchored_growing {r : RunRecord} (growing : r.growing = true) :
    r.anchored = true ↔ r.state = .opened ∨ ∃ why, r.state = .unrepaired why := by
  unfold RunRecord.anchored
  cases state : r.state <;> simp [growing]

theorem RunRecord.anchored_grow {r : RunRecord} (growing : r.growing = true) (h : r.anchored = true) (limit x : Nat)
    (cs : Causes) : (r.grow limit x cs).anchored = true := by
  refine (RunRecord.anchored_growing ((r.grow_place limit x cs).2.2.trans growing)).2 ?_
  unfold RunRecord.grow
  dsimp only
  split
  · exact .inr ⟨_, rfl⟩
  · exact (RunRecord.anchored_growing growing).1 h

theorem RunRecord.reopen_place (r : RunRecord) (limit p : Nat) (cs : Causes) :
    (r.reopen limit p cs).first = r.first ∧ (r.reopen limit p cs).last = p ∧ (r.reopen limit p cs).growing = true :=
  RunRecord.grow_place _ limit p cs

/-- A record that a merge reopens is OPEN or UNREPAIRED (R54). -/
theorem RunRecord.anchored_reopen {r : RunRecord} {p quiet merge : Nat} (h : r.mergeable p quiet merge = true) (limit : Nat)
    (cs : Causes) : (r.reopen limit p cs).anchored = true := by
  unfold RunRecord.reopen
  refine RunRecord.anchored_grow rfl ((RunRecord.anchored_growing rfl).2 ?_) limit p cs
  dsimp only
  unfold RunRecord.mergeable RunState.isUnrepaired at h
  cases state : r.state <;> simp_all

section
variable {s : State} {l : LaneId} (sound : (s.lane l).det.Sound (s.lane l).nextPosition)
  (stay : (s.lane l).det.AllStay (s.lane l).headPosition)
include sound stay

/-- The latest record takes another extent that ends at the next position (R54, R55). -/
theorem State.detAfter_modRun {r : RunRecord} (latest : (s.lane l).det.latest? = some r) {f : RunRecord → RunRecord}
    (number : (f r).number = r.number)
    (place : (f r).first = r.first ∧ (f r).last = (s.lane l).nextPosition ∧ (f r).growing = true)
    (anchored : (f r).anchored = true) :
    (s.lane l).DetAfter ((s.lane l).nextPosition + 1) ((s.modDet l fun d => (d.modRun r.number f).resetCalm).lane l) := by
  obtain ⟨first, last, growing⟩ := place
  have runs := sound.modRun_latest latest f
  have listed : r ∈ (s.lane l).det.runs := by
    rw [Detector.latest?_eq_some latest]
    simp
  have bounds := sound.bounds r listed
  unfold State.modDet
  rw [State.lane_modLane_same]
  refine ⟨_, _, rfl, sound.replaceLatest latest (Nat.le_succ _) runs number first ?_ anchored
    fun _ c => absurd c (Nat.lt_irrefl 0), fun q hq => ?_⟩
  · omega
  · unfold Detector.resetCalm at hq
    rw [runs] at hq
    rcases List.mem_append.1 hq with old | new
    · exact stay q (List.mem_of_mem_dropLast old)
    · rw [List.mem_singleton.1 new]
      exact .inl growing

theorem State.detAfter_openRun (none : (s.lane l).det.openRun? = none) (c : LaneConfig) (seq : SeqNum) (cs : Causes) :
    (s.lane l).DetAfter ((s.lane l).nextPosition + 1) ((s.openRun l c seq cs).lane l) := by
  unfold State.openRun
  dsimp only
  split
  · rename_i r latest
    split
    · rename_i mergeable
      exact State.detAfter_modRun (s := s.dropRepairEntry l r.number) sound stay latest (r.number_reopen _ _ _)
        (r.reopen_place _ _ _) (RunRecord.anchored_reopen mergeable _ _)
    · exact State.detAfter_openNewRun sound stay none seq cs
  · exact State.detAfter_openNewRun sound stay none seq cs

/-- A loud or forced sample at the next position (R53, R55). -/
theorem State.detAfter_joinRun (c : LaneConfig) (seq : SeqNum) (cs : Causes) :
    (s.lane l).DetAfter ((s.lane l).nextPosition + 1) ((s.joinRun l c seq cs).lane l) := by
  unfold State.joinRun
  split
  · rename_i r isOpen
    obtain ⟨latest, growing⟩ := Detector.openRun?_eq_some.1 isOpen
    have listed : r ∈ (s.lane l).det.runs := by
      rw [Detector.latest?_eq_some latest]
      simp
    obtain ⟨first, last, grows⟩ := r.grow_place c.repairLimit (s.lane l).nextPosition cs
    exact State.detAfter_modRun sound stay latest (r.number_grow _ _ _) ⟨first, last, grows.trans growing⟩
      (RunRecord.anchored_grow growing (sound.anchored r listed) _ _ _)
  · rename_i none
    exact State.detAfter_openRun sound stay none c seq cs

omit stay in
/-- The normal close of the open run, its right anchor the calm start value (R56). -/
theorem State.detAfter_closeRun {r : RunRecord} (isOpen : (s.lane l).det.openRun? = some r) (c : LaneConfig)
    {anchor : Option Sample} (start : r.state = .opened → anchor.isSome = true) :
    (s.lane l).DetAfter (s.lane l).nextPosition ((s.closeRun l c r anchor).lane l) := by
  obtain ⟨latest, growing⟩ := Detector.openRun?_eq_some.1 isOpen
  have listed : r ∈ (s.lane l).det.runs := by
    rw [Detector.latest?_eq_some latest]
    simp
  have anchored := (RunRecord.anchored_growing growing).1 (sound.anchored r listed)
  unfold State.closeRun
  dsimp only
  generalize room : decide (s.repair.queue.length < Config.repairQueueSize) = free
  generalize isState : r.closedState c.repairLimit free = st
  have closed : ({ r with growing := false, rightAnchor := anchor, state := st } : RunRecord).anchored = true
      ∧ st ≠ .opened := by
    unfold RunRecord.closedState at isState
    unfold RunRecord.anchored
    rcases anchored with opened | ⟨why, unrepaired⟩
    · rw [if_pos opened] at isState
      split at isState
      · subst isState
        exact ⟨rfl, by simp⟩
      · split at isState
        · subst isState
          exact ⟨rfl, by simp⟩
        · rename_i left
          split at isState
          · subst isState
            exact ⟨by simpa [start opened] using Option.isSome_iff_ne_none.2 left, by simp⟩
          · subst isState
            exact ⟨rfl, by simp⟩
    · rw [if_neg (by simp [unrepaired]), unrepaired] at isState
      subst isState
      exact ⟨rfl, by simp⟩
  have runs := sound.modRun_latest latest fun r => { r with growing := false, rightAnchor := anchor, state := st }
  generalize lane : (s.modDet l fun d => (d.modRun r.number fun r =>
    { r with growing := false, rightAnchor := anchor, state := st }).resetCalm) = s1
  have changed : s1.lane l = { s.lane l with
      det := ((s.lane l).det.modRun r.number fun r => { r with growing := false, rightAnchor := anchor, state := st }).resetCalm } := by
    rw [← lane]
    exact State.lane_modLane_same s l _
  have bounds := sound.bounds r listed
  have sound1 : (s1.lane l).det.Sound (s.lane l).nextPosition := by
    rw [changed]
    exact sound.replaceLatest latest (Nat.le_refl _) runs rfl rfl bounds closed.1 fun opened => absurd opened closed.2
  have released : ∀ u : State, u.lane l = s1.lane l →
      (s.lane l).DetAfter (s.lane l).nextPosition ((u.releaseRuns l).lane l) := fun u same => by
    obtain ⟨d, k, after, sound2, stay2⟩ := State.detAfter_releaseRuns (s := u) (l := l) (same ▸ sound1)
    rw [same, changed] at after stay2
    exact ⟨d, k, after, sound2, stay2⟩
  split
  · exact released _ rfl
  · exact released _ rfl

/-- A calm sample (R52, step 5). -/
theorem State.detAfter_calmSample (c : LaneConfig) (v : Sample) :
    (s.lane l).DetAfter (s.lane l).nextPosition ((s.calmSample l c v).lane l) := by
  unfold State.calmSample
  dsimp only
  split
  · rename_i r isOpen
    have listed : r ∈ (s.lane l).det.runs := by
      rw [Detector.latest?_eq_some (Detector.openRun?_eq_some.1 isOpen).1]
      simp
    have start : r.state = .opened →
        (if (s.lane l).det.calmCount = 0 then some v else (s.lane l).det.calmStart).isSome = true := fun opened => by
      split
      · rfl
      · rename_i counting
        exact sound.calm ⟨r, listed, opened⟩ (Nat.pos_of_ne_zero counting)
    split
    · exact State.detAfter_closeRun sound isOpen c start
    · unfold State.modDet
      rw [State.lane_modLane_same]
      refine ⟨_, _, rfl, { sound with calm := fun ⟨q, hq, opened⟩ _ => ?_ }, stay⟩
      have latest : q = r := by
        obtain ⟨latest, growing⟩ := Detector.openRun?_eq_some.1 isOpen
        have listed := hq
        rw [Detector.latest?_eq_some latest] at listed
        rcases List.mem_append.1 listed with old | new
        · have still := (sound.earlier latest q old).2
          rw [RunRecord.anchored_opened (sound.anchored q hq) opened] at still
          contradiction
        · exact List.mem_singleton.1 new
      exact start (latest ▸ opened)
  · exact ⟨_, _, rfl, sound, stay⟩

/-- The detector's step on the sample at the next position keeps the laws of the run list, up to and with that position
(R52). -/
theorem State.detAfter_detect (c : LaneConfig) (seq : SeqNum) (spans : List (Causes × Nat)) (v : Sample) :
    (s.lane l).DetAfter ((s.lane l).nextPosition + 1) ((s.detect l c seq spans v).lane l) := by
  unfold State.detect
  dsimp only
  have began : (s.lane l).DetAfter (s.lane l).nextPosition ((s.modDet l fun d => d.beginSpans spans).lane l) :=
    Lane.DetAfter.modDet ⟨_, _, rfl, sound, stay⟩ _ (fun _ h => h.beginSpans spans) fun _ h => h.beginSpans spans
  generalize (s.modDet l fun d => d.beginSpans spans) = s1 at began
  have same : (s1.lane l).det.Sound (s1.lane l).nextPosition ∧ (s1.lane l).det.AllStay (s1.lane l).headPosition := by
    obtain ⟨d, k, lane, sound1, stay1⟩ := began
    rw [lane]
    exact ⟨sound1, stay1⟩
  have next : (s1.lane l).nextPosition = (s.lane l).nextPosition := by
    obtain ⟨d, k, lane, _⟩ := began
    rw [lane]
  have joined := fun cs => began.trans (next ▸ State.detAfter_joinRun same.1 same.2 c seq cs)
  have remembered : ∀ u : State, (s.lane l).DetAfter ((s.lane l).nextPosition + 1) (u.lane l) →
      (s.lane l).DetAfter ((s.lane l).nextPosition + 1) ((u.modDet l fun d => d.remember v).lane l) := fun u h =>
    h.modDet _ (fun _ d => d.remember v) fun _ => id
  refine remembered _ ?_
  split
  · exact (joined _).modDet _ (fun _ d => d.spendForced) fun _ => id
  · split
    · exact joined _
    · obtain ⟨d, k, lane, sound2, stay2⟩ := began.trans (next ▸ State.detAfter_calmSample same.1 same.2 c v)
      exact ⟨d, k, lane, sound2.mono (Nat.le_succ _), stay2⟩

end

end Sys2Proof.Machine
end

section
/-! The hold line of a lane (R71 to R73, R97): the held parcels one behind another, the assembly at their head, and what the
departure of one sample makes of them. -/

namespace Sys2Proof.Machine

/-! ### What a move leaves of the other lanes -/

/-- A move of lane l changes another lane in its hum state at most. -/
theorem LaneMove.others {l : LaneId} {s t : State} (h : LaneMove l s t) {m : LaneId} (hm : m ≠ l) :
    ∃ a, t.lane m = { s.lane m with hum := a } := by
  induction h with
  | refl => exact ⟨_, rfl⟩
  | trans _ _ first second =>
    obtain ⟨a, first⟩ := first
    obtain ⟨b, second⟩ := second
    exact ⟨b, by rw [second, first]⟩
  | entry s f _ => exact ⟨_, s.lane_modLane_ne f hm⟩
  | newRun s r _ => exact ⟨_, s.lane_modLane_ne _ hm⟩
  | gate s b => exact ⟨_, s.lane_modLane_ne _ hm⟩
  | units | issue | push | headWaiting => exact ⟨_, rfl⟩
  | phase s f _ _ => exact HumOnly.modHum s l f m
  | humBegin s p seq => exact HumOnly.humBegin s l p seq m
  | changeState s st _ _ =>
    obtain ⟨a, changed⟩ := s.lane_changeState l st m
    rw [if_neg hm] at changed
    exact ⟨a, changed⟩
  | becomeOff s => exact s.lane_becomeOff_ne hm
  | enterRunning s _ => exact ⟨_, by rw [State.lane_enterRunning, if_neg hm]⟩
  | checkerLoss s seq d => exact ⟨_, (s.checkerLoss_only l seq d).lane m⟩
  | checkerParcel s seq ws _ _ => exact ⟨_, (s.checkerParcel_only l seq ws).lane m⟩

/-! ### Held parcels -/

theorem heldFrom_cons (next : Nat) (p : HeldParcel) (ps : List HeldParcel) :
    heldFrom next (p :: ps) = true ↔
      (p.samples ≠ [] ∧ p.departed + p.samples.length = p.count)
        ∧ (ps = [] → p.firstPosition + p.count = next)
        ∧ (∀ q qs, ps = q :: qs → p.firstPosition + p.count = q.firstPosition ∧ q.departed = 0)
        ∧ heldFrom next ps = true := by
  cases ps <;> simp [heldFrom, and_assoc]

/-- A parcel of a lane's hold line holds samples, and its count is that of its samples with those that have departed. -/
theorem heldFrom_parcel {next : Nat} : ∀ {held : List HeldParcel}, heldFrom next held = true →
    ∀ p ∈ held, p.samples ≠ [] ∧ p.departed + p.samples.length = p.count
  | p :: ps, h, q, hq => by
    obtain ⟨own, _, _, rest⟩ := (heldFrom_cons next p ps).1 h
    rcases List.mem_cons.1 hq with rfl | later
    · exact own
    · exact heldFrom_parcel rest q later

/-- The held samples stand without a gap from the head position to the next position (R71, R72). -/
theorem Lane.headPosition_add_occupancy : ∀ {x : Lane}, heldFrom x.nextPosition x.held = true →
    x.headPosition + x.occupancy = x.nextPosition := by
  have line : ∀ (next : Nat) (held : List HeldParcel), heldFrom next held = true →
      (match held with | [] => next | p :: _ => p.firstPosition + p.departed)
        + (held.map fun p => p.samples.length).sum = next := by
    intro next held
    induction held with
    | nil => exact fun _ => rfl
    | cons p ps ih =>
      intro h
      obtain ⟨⟨_, count⟩, last, near, rest⟩ := (heldFrom_cons next p ps).1 h
      have behind := ih rest
      cases ps with
      | nil =>
        have := last rfl
        simp only [List.map_cons, List.map_nil, List.sum_cons, List.sum_nil]
        omega
      | cons q qs =>
        obtain ⟨joint, fresh⟩ := near q qs rfl
        simp only [List.map_cons, List.sum_cons] at behind ⊢
        omega
  intro x h
  exact line x.nextPosition x.held h

theorem Lane.assemblyLawful_empty {x : Lane} (h : x.assembly = .empty) :
    x.assemblyLawful = true ↔ ∀ q qs, x.held = q :: qs → q.departed = 0 := by
  unfold Lane.assemblyLawful
  rw [h]
  cases x.held <;> simp

theorem Lane.assemblyLawful_complete {x : Lane} {b : AssemblyBody} {ms : List MarkEntry} {f : SampleFlags}
    (h : x.assembly = .complete b ms f) :
    x.assemblyLawful = true ↔ b.samples.length = b.count ∧ ∀ q qs, x.held = q :: qs → q.departed = 0 := by
  unfold Lane.assemblyLawful
  rw [h]
  cases x.held <;> simp

theorem Lane.assemblyLawful_building {x : Lane} {b : AssemblyBody} (h : x.assembly = .building b) :
    x.assemblyLawful = true ↔
      ∃ p ps, x.held = p :: ps ∧ (b.seq = p.seq ∧ b.count = p.count ∧ b.route = p.route ∧ b.resumed = p.resumed)
        ∧ b.samples.length = p.departed ∧ 1 ≤ p.departed := by
  unfold Lane.assemblyLawful
  rw [h]
  cases x.held <;> simp [and_assoc]

/-- The laws of a lane's hold line, mark list and assembly (R21, R71 to R73, R97). -/
structure Lane.HeldOk (x : Lane) : Prop where
  room : x.occupancy ≤ x.allocation
  marks : x.marks.length ≤ 8
  held : heldFrom x.nextPosition x.held = true
  assembly : x.assemblyLawful = true

/-- The laws of one lane, taken apart. -/
theorem laneLaws_iff (x : Lane) :
    LaneLaws x ∧ x.runNumbers.Nodup ↔
      RestLaw x ∧ x.HeldOk ∧ x.det.Sound x.nextPosition ∧ x.det.AllStay x.headPosition
        ∧ (x.state.isFlushing = true → ∀ r ∈ x.det.runs, r.growing = false) := by
  constructor
  · rintro ⟨⟨rest, ⟨room, marks⟩, ⟨held, ordered, lawful, calm, closed⟩, assembly⟩, once⟩
    obtain ⟨bounds, apart⟩ := (runsOrdered_iff _ _).1 ordered
    have records := fun r hr => (RunRecord.lawful_iff r _).1 (lawful r hr)
    exact ⟨rest, ⟨room, marks, held, assembly⟩, ⟨once, bounds, apart, fun r hr => (records r hr).1, calm⟩,
      fun r hr => (records r hr).2, closed⟩
  · rintro ⟨rest, ⟨room, marks, held, assembly⟩, ⟨once, bounds, apart, anchored, calm⟩, stay, closed⟩
    exact ⟨⟨rest, ⟨room, marks⟩, ⟨held, (runsOrdered_iff _ _).2 ⟨bounds, apart⟩,
      fun r hr => (RunRecord.lawful_iff r _).2 ⟨anchored r hr, stay r hr⟩, calm, closed⟩, assembly⟩, once⟩

/-! ### Overtaking -/

/-- Overtaking keeps the laws of the run list; the run that grows to the departing sample is UNREPAIRED from then on
(R79). -/
theorem Lane.overtake_after {x : Lane} (sound : x.det.Sound x.nextPosition) {pos : Nat} (before : pos < x.nextPosition) :
    ∃ d, x.overtake pos = { x with det := d } ∧ d.Sound x.nextPosition := by
  unfold Lane.overtake
  split
  · rename_i r isOpen
    obtain ⟨latest, growing⟩ := Detector.openRun?_eq_some.1 isOpen
    have listed : r ∈ x.det.runs := by
      rw [Detector.latest?_eq_some latest]
      simp
    have bounds := sound.bounds r listed
    have runs := sound.modRun_latest latest fun r => r.overtake pos
    have notOpen : (r.overtake pos).state ≠ .opened := by
      unfold RunRecord.overtake
      dsimp only
      split
      · simp
      · assumption
    have anchored : (r.overtake pos).anchored = true := by
      refine (RunRecord.anchored_growing (r := r.overtake pos) growing).2 (.inr ?_)
      rcases (RunRecord.anchored_growing growing).1 (sound.anchored r listed) with opened | ⟨why, unrepaired⟩
      · exact ⟨_, if_pos opened⟩
      · exact ⟨why, (if_neg (by simp [unrepaired])).trans unrepaired⟩
    have place : (r.overtake pos).first ≤ (r.overtake pos).last ∧ (r.overtake pos).last < x.nextPosition := by
      unfold RunRecord.overtake
      dsimp only
      omega
    have overtaken : ∀ e : Detector, e.runs = (x.det.modRun r.number fun r => r.overtake pos).runs → e.Sound x.nextPosition :=
      fun e same => sound.replaceLatest latest (Nat.le_refl _) (same.trans runs) rfl rfl place anchored
        fun opened => absurd opened notOpen
    dsimp only
    split
    · split
      · exact ⟨_, rfl, overtaken _ rfl⟩
      · exact ⟨_, rfl, overtaken _ rfl⟩
    · exact ⟨_, rfl, sound⟩
  · exact ⟨_, rfl, sound⟩

end Sys2Proof.Machine
end

section
/-! The departure of one sample keeps the laws of the hold line, of the wait list and of the parcels on their way (R75 to
R79, R97 to R104, R134). -/

namespace Sys2Proof.Machine

/-! ### The wait list while a lane works -/

/-- The law of the wait list (R97, R103) while lane l works: a part of its assembly that waits has it in the list. -/
structure State.WaitsBut (l : LaneId) (s : State) : Prop where
  nodup : s.waitList.Nodup
  bound : s.delivery.samples.length ≤ 32
  full : s.waitList ≠ [] → s.delivery.samples.length = 32
  others : ∀ m, m ≠ l → (m ∈ s.waitList ↔ (s.lane m).hasPart = true)
  own : l ∈ s.waitList → (s.lane l).hasPart = true
  complete : (s.lane l).assembly.canTake = false → l ∈ s.waitList

/-- The wait list and the sample queue are as they were. -/
def State.QueueSame (s t : State) : Prop := t.waitList = s.waitList ∧ t.delivery.samples = s.delivery.samples

theorem State.QueueSame.refl (s : State) : s.QueueSame s := ⟨rfl, rfl⟩

theorem State.QueueSame.trans {s t u : State} (h : s.QueueSame t) (k : t.QueueSame u) : s.QueueSame u :=
  ⟨k.1.trans h.1, k.2.trans h.2⟩

/-- The part that waits of a lane is seen in its state, hold line, assembly and marks (R97, R105). -/
theorem Lane.hasPart_congr {x y : Lane} (state : y.state.isFlushing = x.state.isFlushing) (held : y.held = x.held)
    (assembly : y.assembly = x.assembly) (marks : y.marks = x.marks) : y.hasPart = x.hasPart := by
  unfold Lane.hasPart Lane.trailing
  rw [state, held, assembly, marks]

/-- Work that leaves the queues and the lane's part leaves the law of the wait list. -/
theorem State.WaitsBut.of_same {l : LaneId} {s t : State} (h : s.WaitsBut l)
    (moved : ∀ m, m ≠ l → ∃ a, t.lane m = { s.lane m with hum := a }) (same : s.QueueSame t)
    (own : l ∈ s.waitList → (t.lane l).hasPart = true) (complete : (t.lane l).assembly.canTake = false → l ∈ s.waitList) :
    t.WaitsBut l where
  nodup := by rw [same.1]; exact h.nodup
  bound := by rw [same.2]; exact h.bound
  full := by rw [same.1, same.2]; exact h.full
  others m hm := by
    obtain ⟨a, lane⟩ := moved m hm
    rw [same.1, lane]
    exact h.others m hm
  own := by rw [same.1]; exact own
  complete := by rw [same.1]; exact complete

theorem State.queueSame_releaseRuns (s : State) (l : LaneId) : s.QueueSame (s.releaseRuns l) := by
  have reports : ∀ (rs : List RunRecord) (u : State), u.QueueSame (rs.foldl (fun t r => t.reportRelease l r) u) := by
    intro rs
    induction rs with
    | nil => exact fun u => .refl u
    | cons r rs ih =>
      intro u
      have one : u.QueueSame (u.reportRelease l r) := by
        unfold State.reportRelease
        split
        · exact .refl u
        · exact ⟨rfl, by simp⟩
        all_goals exact .refl u
      exact one.trans (ih _)
  unfold State.releaseRuns
  dsimp only
  split
  · exact .refl s
  · exact State.QueueSame.trans ⟨rfl, rfl⟩ (reports _ _)

/-- The release test does not touch the hold line (R90). -/
theorem State.WaitsBut.releaseRuns {l : LaneId} {s : State} (h : s.WaitsBut l) : (s.releaseRuns l).WaitsBut l := by
  obtain ⟨c, lane⟩ := s.lane_releaseRuns l
  refine h.of_same (fun m => (s.releaseRuns_move l).others) (s.queueSame_releaseRuns l) (fun listed => ?_) fun complete => ?_
  · rw [lane]
    exact h.own listed
  · rw [lane] at complete
    exact h.complete complete

/-! ### Completion -/

theorem State.queueSame_gateStep (s : State) (l : LaneId) (b : AssemblyBody) : s.QueueSame (s.gateStep l b) := by
  rw [State.gateStep_eq]
  split
  · split
    · exact ⟨rfl, by simp⟩
    · split
      · exact ⟨rfl, by simp⟩
      · exact .refl s
  · exact .refl s

/-- What a completion makes of the part, without the values of the samples and of the gate (R100 to R103). -/
theorem State.completeAssembly_after (s : State) (l : LaneId) (b : AssemblyBody) :
    ∃ (b' : AssemblyBody) (f : SampleFlags) (g : Gate) (ms : List MarkEntry) (n : Nat),
      b'.count = b.count ∧ b'.samples.length = b.samples.length ∧ ms = leadingMarks (s.lane l).marks b.seq
        ∧ n = 32 - s.delivery.samples.length
        ∧ (s.completeAssembly l b).lane l =
            { s.lane l with gate := g, marks := laterMarks (s.lane l).marks b.seq, assembly := b'.leftOf ms f n }
        ∧ (s.completeAssembly l b).delivery.samples = s.delivery.samples ++ (b'.parts l ms f).take n
        ∧ (s.completeAssembly l b).waitList =
            if ms.length + 1 ≤ n ∨ l ∈ s.waitList then s.waitList else s.waitList ++ [l] := by
  have gated : (s.gateStep l b).lane l = { s.lane l with gate := (s.lane l).gateAfter b } := by
    rw [State.gateStep_eq, State.lane_withLane_same]
  have same := s.queueSame_gateStep l b
  unfold State.completeAssembly
  dsimp only
  generalize s.parcelGain l b = gain
  generalize s.gateStep l b = s1 at gated same
  rw [← same.1, ← same.2]
  generalize whole : (s1.modLane l fun ln =>
    { ln with
      marks := laterMarks ln.marks b.seq
      assembly := .complete { b with samples := b.samples.map (scaleSample gain) } (leadingMarks ln.marks b.seq)
        (b.flags (decide (gain ≠ 256))) }) = s2
  have lane : s2.lane l = { s1.lane l with
      marks := laterMarks (s1.lane l).marks b.seq
      assembly := .complete { b with samples := b.samples.map (scaleSample gain) } (leadingMarks (s1.lane l).marks b.seq)
        (b.flags (decide (gain ≠ 256))) } := by
    rw [← whole]
    exact State.lane_modLane_same s1 l _
  have queues : s1.QueueSame s2 := by
    rw [← whole]
    exact ⟨rfl, rfl⟩
  rw [gated] at lane
  rw [← queues.1, ← queues.2, State.placeAssembly_eq (congrArg Lane.assembly lane)]
  refine ⟨{ b with samples := b.samples.map (scaleSample gain) }, b.flags (decide (gain ≠ 256)), (s.lane l).gateAfter b, _, _,
    rfl, List.length_map _, rfl, rfl, ?_, rfl, ?_⟩
  · refine (State.lane_of_set (s := s2) rfl).trans ?_
    rw [lane]
  · rfl

/-- A completion leaves the hold line its laws (R97, R103). -/
theorem State.heldOk_completeAssembly {s : State} {l : LaneId} {b : AssemblyBody}
    (room : (s.lane l).occupancy ≤ (s.lane l).allocation) (marks : (s.lane l).marks.length ≤ 8)
    (held : heldFrom (s.lane l).nextPosition (s.lane l).held = true) (whole : b.samples.length = b.count)
    (fresh : ∀ q qs, (s.lane l).held = q :: qs → q.departed = 0) : ((s.completeAssembly l b).lane l).HeldOk := by
  obtain ⟨b', f, g, ms, n, count, length, _, _, lane, _⟩ := s.completeAssembly_after l b
  rw [lane]
  refine ⟨room, (List.length_filter_le _ _).trans marks, held, ?_⟩
  by_cases all : ms.length + 1 ≤ n
  · exact (Lane.assemblyLawful_empty (if_pos all)).2 fresh
  · exact (Lane.assemblyLawful_complete (if_neg all)).2 ⟨by rw [length, count, whole], fresh⟩

/-- A completion by a lane that does not wait places what it can, and the lane waits with what it cannot (R103). -/
theorem State.WaitsBut.completeAssembly {s : State} {l : LaneId} (h : s.WaitsBut l) (unlisted : l ∉ s.waitList)
    (b : AssemblyBody) : (s.completeAssembly l b).WaitsBut l := by
  obtain ⟨b', f, g, ms, n, _, _, _, room, lane, samples, waitList⟩ := s.completeAssembly_after l b
  have bound := h.bound
  have length : (s.completeAssembly l b).delivery.samples.length = s.delivery.samples.length + min n (ms.length + 1) := by
    rw [samples, List.length_append, List.length_take, AssemblyBody.length_parts]
  by_cases all : ms.length + 1 ≤ n
  · rw [if_pos (.inl all)] at waitList
    have noneWaits : s.waitList = [] := by
      by_contra some
      have := h.full some
      omega
    rw [noneWaits] at waitList
    refine ⟨waitList ▸ List.nodup_nil, by omega, fun some => absurd waitList some, fun m hm => ?_, fun listed => ?_,
      fun waits => ?_⟩
    · obtain ⟨a, other⟩ := (s.completeAssembly_move l b).others hm
      rw [waitList, other, ← noneWaits]
      exact h.others m hm
    · rw [waitList] at listed
      contradiction
    · rw [lane, AssemblyBody.leftOf, if_pos all] at waits
      contradiction
  · rw [if_neg (by simp [all, unlisted])] at waitList
    have part : ((s.completeAssembly l b).lane l).hasPart = true := by
      rw [lane, AssemblyBody.leftOf, if_neg all]
      exact (Lane.hasPart_iff _).2 (.inl ⟨_, _, _, rfl⟩)
    refine ⟨?_, by omega, fun _ => by omega, fun m hm => ?_, fun _ => part, fun _ => by simp [waitList]⟩
    · rw [waitList]
      exact List.nodup_append.2 ⟨h.nodup, List.nodup_singleton _, fun a ha c hc => by
        rintro rfl
        exact unlisted (List.mem_singleton.1 hc ▸ ha)⟩
    · obtain ⟨a, other⟩ := (s.completeAssembly_move l b).others hm
      rw [waitList, other, List.mem_append, List.mem_singleton, or_iff_left hm]
      exact h.others m hm

/-! ### One departure -/

/-- A lane whose head sample can depart waits for no place (R75, R97). -/
theorem State.WaitsBut.unlisted {s : State} {l : LaneId} (h : s.WaitsBut l) (can : (s.lane l).canDepart = true) :
    l ∉ s.waitList := by
  intro listed
  obtain ⟨p, ps, held, _, _, free⟩ := (Lane.canDepart_iff _).1 can
  rcases (Lane.hasPart_iff _).1 (h.own listed) with ⟨b, ms, f, complete⟩ | trailing
  · exact free b ms f complete
  · rw [((Lane.trailing_iff _).1 trailing).2.1] at held
    contradiction

/-- The departure of the head sample without its value and treatment (R75 to R79, R98). -/
theorem State.departOne_collected {s : State} {l : LaneId} {p : HeldParcel} {ps : List HeldParcel} {v : Sample}
    {vs : List Sample} (held : (s.lane l).held = p :: ps) (samples : p.samples = v :: vs) {y : Lane}
    (hy : y = (s.lane l).overtake p.headPosition) :
    ∃ (b : AssemblyBody) (u : State),
      (∃ w t f, b = ((s.lane l).assembly.bodyFor p).collect w t f)
        ∧ (∃ g i, u =
            { s with
              generator := g, intake := i
              lanes := s.lanes.set l { y with held := heldAfter p ps, assembly := .building b } })
        ∧ s.departOne l = (if b.samples.length < b.count then u else u.completeAssembly l b).releaseRuns l := by
  have after : heldAfter p ps = if vs = [] then ps else { p with samples := vs, departed := p.departed + 1 } :: ps := by
    simp only [heldAfter, samples, List.tail_cons, List.isEmpty_iff]
  rw [after]
  exact ⟨_, _, ⟨_, _, _, rfl⟩, ⟨_, _, rfl⟩, State.departOne_eq held samples hy rfl rfl rfl⟩

/-- What one departure makes of the part, stage by stage: the head sample joins the assembly of a lane that is as it was
otherwise (u), the assembly completes or not, and the release test follows (R75 to R79, R90, R97, R98). -/
theorem State.departOne_after {s : State} {l : LaneId} (can : (s.lane l).canDepart = true) (ok : (s.lane l).HeldOk)
    (sound : (s.lane l).det.Sound (s.lane l).nextPosition) :
    ∃ (p : HeldParcel) (ps : List HeldParcel) (b : AssemblyBody) (d : Detector) (u : State),
      (s.lane l).held = p :: ps
        ∧ (b.seq = p.seq ∧ b.count = p.count ∧ b.route = p.route ∧ b.resumed = p.resumed)
        ∧ b.samples.length = p.departed + 1
        ∧ (∀ m, m ≠ l → u.lane m = s.lane m) ∧ s.QueueSame u
        ∧ u.lane l = { s.lane l with det := d, held := heldAfter p ps, assembly := .building b }
        ∧ d.Sound (s.lane l).nextPosition
        ∧ s.departOne l = (if b.samples.length < b.count then u else u.completeAssembly l b).releaseRuns l := by
  obtain ⟨p, ps, held, _, _, free⟩ := (Lane.canDepart_iff _).1 can
  obtain ⟨nonempty, count⟩ := heldFrom_parcel ok.held p (by simp [held])
  obtain ⟨v, vs, samples⟩ := List.exists_cons_of_ne_nil nonempty
  have head : (s.lane l).headPosition = p.headPosition := by
    unfold Lane.headPosition
    rw [held]
    rfl
  have before : p.headPosition < (s.lane l).nextPosition := by
    have line := Lane.headPosition_add_occupancy ok.held
    rw [head, Lane.occupancy, held, List.map_cons, List.sum_cons, samples, List.length_cons] at line
    omega
  obtain ⟨d, overtaken, sound'⟩ := Lane.overtake_after sound before
  have body : (((s.lane l).assembly.bodyFor p).seq = p.seq ∧ ((s.lane l).assembly.bodyFor p).count = p.count
      ∧ ((s.lane l).assembly.bodyFor p).route = p.route ∧ ((s.lane l).assembly.bodyFor p).resumed = p.resumed)
      ∧ ((s.lane l).assembly.bodyFor p).samples.length = p.departed := by
    cases assembly : (s.lane l).assembly with
    | empty => exact ⟨⟨rfl, rfl, rfl, rfl⟩, ((Lane.assemblyLawful_empty assembly).1 ok.assembly p ps held).symm⟩
    | building b =>
      obtain ⟨q, qs, held', fields, length, _⟩ := (Lane.assemblyLawful_building assembly).1 ok.assembly
      rw [held] at held'
      cases held'
      exact ⟨fields, length⟩
    | complete b ms f => exact absurd assembly (free b ms f)
  obtain ⟨b, u, ⟨w, t, f, rfl⟩, ⟨g, i, isU⟩, one⟩ := State.departOne_collected held samples overtaken.symm
  generalize (s.lane l).assembly.bodyFor p = b₀ at body isU one
  refine ⟨p, ps, b₀.collect w t f, d, u, held, body.1, ?_, fun m hm => ?_, ?_, ?_, sound', one⟩
  · rw [AssemblyBody.collect, List.length_append, body.2, List.length_singleton]
  · rw [isU]
    exact s.lane_modLane_ne (fun _ => _) hm
  · rw [isU]
    exact ⟨rfl, rfl⟩
  · rw [isU]
    exact State.lane_of_set (s := s) rfl

section
variable {next : Nat} {p : HeldParcel} {ps : List HeldParcel} (line : heldFrom next (p :: ps) = true)
include line

/-- A held parcel that has more than its head sample keeps the rest. -/
theorem heldAfter_more (more : p.departed + 1 < p.count) :
    heldAfter p ps = { p with samples := p.samples.tail, departed := p.departed + 1 } :: ps
      ∧ heldFrom next ({ p with samples := p.samples.tail, departed := p.departed + 1 } :: ps) = true := by
  obtain ⟨⟨nonempty, count⟩, last, near, rest⟩ := (heldFrom_cons next p ps).1 line
  have length : p.samples.tail.length + 1 = p.samples.length := by
    rw [List.length_tail]
    have := List.length_pos_of_ne_nil nonempty
    omega
  have some : p.samples.tail ≠ [] := fun none => by
    rw [none, List.length_nil] at length
    omega
  refine ⟨if_neg (by simpa using some), (heldFrom_cons next _ ps).2 ⟨⟨some, ?_⟩, last, near, rest⟩⟩
  dsimp only
  omega

/-- With its last sample a held parcel leaves the hold line. -/
theorem heldAfter_last (last : p.count ≤ p.departed + 1) :
    heldAfter p ps = ps ∧ heldFrom next ps = true ∧ ∀ q qs, ps = q :: qs → q.departed = 0 := by
  obtain ⟨⟨nonempty, count⟩, _, near, rest⟩ := (heldFrom_cons next p ps).1 line
  have length := List.length_pos_of_ne_nil nonempty
  refine ⟨if_pos ?_, rest, fun q qs h => (near q qs h).2⟩
  rw [List.isEmpty_iff, ← List.length_eq_zero_iff, List.length_tail]
  omega

end

/-- What lane l holds on its way to the sample queue, and the parcels in that queue, are in the ranges of R134 and R177. -/
def State.RangesOk (l : LaneId) (s : State) : Prop :=
  LaneParcelLaw (s.lane l) ∧ ∀ p ∈ s.delivery.samples, p.inRange = true

/-- The laws of lane l while it works: hold line, run list and wait list, and, where q asks for them, the ranges of the
parcels. -/
structure State.LineOk (q : Prop) (l : LaneId) (s : State) : Prop where
  line : (s.lane l).HeldOk
  runs : (s.lane l).det.Sound (s.lane l).nextPosition
  waits : s.WaitsBut l
  ranges : q → s.RangesOk l

variable {q : Prop}

theorem State.RangesOk.of_same {l : LaneId} {s t : State} (h : s.RangesOk l) (same : s.QueueSame t)
    (lane : LaneParcelLaw (s.lane l) → LaneParcelLaw (t.lane l)) : t.RangesOk l :=
  ⟨lane h.1, by rw [same.2]; exact h.2⟩

/-- A completion keeps the ranges (R100 to R102, R177). -/
theorem State.RangesOk.completeAssembly {l : LaneId} {s : State} (h : s.RangesOk l) {b : AssemblyBody}
    (length : 1 ≤ b.samples.length ∧ b.samples.length ≤ 512) : (s.completeAssembly l b).RangesOk l := by
  obtain ⟨b', f, g, ms, n, _, size, isLead, _, lane, samples, _⟩ := s.completeAssembly_after l b
  obtain ⟨⟨marks, held, _⟩, queue⟩ := h
  rw [← size] at length
  have leads : ∀ m ∈ ms, m.offset ≤ 511 := fun m hm => by
    rw [isLead] at hm
    exact marks m (List.mem_of_mem_filter hm)
  refine ⟨?_, fun p hp => ?_⟩
  · rw [lane]
    refine ⟨fun m hm => marks m (List.mem_of_mem_filter hm), held, ?_⟩
    unfold AssemblyBody.leftOf
    dsimp only
    split
    · rfl
    · simp only [Assembly.inRange, length.1, length.2, decide_true, Bool.and_true, Bool.true_and, List.all_eq_true,
        decide_eq_true_eq]
      exact fun m hm => leads m (List.mem_of_mem_drop hm)
  · rw [samples] at hp
    rcases List.mem_append.1 hp with old | new
    · exact queue p old
    · rcases List.mem_append.1 (List.mem_of_mem_take new) with mark | parcel
      · obtain ⟨m, hm, rfl⟩ := List.mem_map.1 mark
        exact decide_eq_true (leads m hm)
      · rw [List.mem_singleton.1 parcel]
        exact Bool.and_eq_true_iff.2 ⟨decide_eq_true length.1, decide_eq_true length.2⟩

/-- The release test keeps the laws, and every record stays that is left (R90). -/
theorem State.LineOk.releaseRuns {l : LaneId} {s : State} (h : s.LineOk q l) :
    (s.releaseRuns l).LineOk q l ∧ ((s.releaseRuns l).lane l).det.AllStay ((s.releaseRuns l).lane l).headPosition := by
  obtain ⟨d, c, lane, sound, stay⟩ := State.detAfter_releaseRuns h.runs
  refine ⟨⟨?_, ?_, h.waits.releaseRuns, fun hq => (h.ranges hq).of_same (s.queueSame_releaseRuns l) fun law => ?_⟩, ?_⟩
  · rw [lane]
    exact ⟨h.line.room, h.line.marks, h.line.held, h.line.assembly⟩
  · rw [lane]
    exact sound
  · rw [lane]
    exact law
  · rw [lane]
    exact stay

/-- One departure keeps the laws of the lane and of the wait list, and releases what it has passed (R75 to R79, R90,
R97). -/
theorem State.LineOk.departOne {l : LaneId} {s : State} (h : s.LineOk q l) (can : (s.lane l).canDepart = true) :
    (s.departOne l).LineOk q l ∧ ((s.departOne l).lane l).det.AllStay ((s.departOne l).lane l).headPosition := by
  obtain ⟨p, ps, b, d, u, held, fields, length, others, queues, lane, sound, one⟩ := State.departOne_after can h.line h.runs
  have unlisted := h.waits.unlisted can
  have line := h.line.held
  have room := h.line.room
  rw [held] at line
  rw [Lane.occupancy, held, List.map_cons, List.sum_cons] at room
  have waits : u.WaitsBut l := by
    refine h.waits.of_same (fun m hm => ⟨_, others m hm⟩) queues (fun listed => absurd listed unlisted) fun waits => ?_
    rw [lane] at waits
    contradiction
  have listed : p ∈ (s.lane l).held := by simp [held]
  have count : ∀ r ∈ heldAfter p ps, ∃ k ∈ (s.lane l).held, r.count = k.count := fun r hr => by
    unfold heldAfter at hr
    rw [held]
    split at hr
    · exact ⟨r, .tail _ hr, rfl⟩
    · rcases List.mem_cons.1 hr with rfl | later
      · exact ⟨p, .head _, rfl⟩
      · exact ⟨r, .tail _ later, rfl⟩
  have ranges : q → u.RangesOk l := fun hq => (h.ranges hq).of_same queues fun ⟨marks, counts, _⟩ => by
    rw [lane]
    refine ⟨marks, fun r hr => ?_, ?_⟩
    · obtain ⟨k, hk, same⟩ := count r hr
      rw [same]
      exact counts k hk
    · exact decide_eq_true (fields.2.1 ▸ (counts p listed).2)
  rw [one]
  refine State.LineOk.releaseRuns ?_
  by_cases more : b.samples.length < b.count
  · obtain ⟨after, line'⟩ := heldAfter_more (ps := ps) line (by omega)
    rw [if_pos more]
    refine ⟨?_, by rw [lane]; exact sound, waits, ranges⟩
    rw [lane, after]
    refine ⟨?_, h.line.marks, line', (Lane.assemblyLawful_building rfl).2 ⟨_, ps, rfl, fields, length, ?_⟩⟩
    · rw [Lane.occupancy, List.map_cons, List.sum_cons, List.length_tail]
      dsimp only
      omega
    · exact Nat.le_add_left 1 _
  · obtain ⟨after, line', fresh⟩ := heldAfter_last (ps := ps) line (by omega)
    rw [if_neg more]
    obtain ⟨_, count⟩ := heldFrom_parcel h.line.held p (by simp [held])
    rw [after] at lane
    have nonempty := List.length_pos_of_ne_nil (heldFrom_parcel h.line.held p (by simp [held])).1
    refine ⟨State.heldOk_completeAssembly ?_ ?_ ?_ (by omega) ?_, ?_, ?_, fun hq => (ranges hq).completeAssembly ?_⟩
    · rw [lane, Lane.occupancy]
      dsimp only
      omega
    · rw [lane]
      exact h.line.marks
    · rw [lane]
      exact line'
    · rw [lane]
      exact fresh
    · obtain ⟨_, _, _, _, _, _, _, _, _, whole, _⟩ := u.completeAssembly_after l b
      rw [whole, lane]
      exact sound
    · exact waits.completeAssembly (by rw [queues.1]; exact unlisted) b
    · have limit := ((h.ranges hq).1.2.1 p listed).2
      omega

theorem State.LineOk.departUpTo {l : LaneId} : ∀ (n : Nat) {s : State}, s.LineOk q l →
    (State.departUpTo n l s).LineOk q l
      ∧ ((s.lane l).det.AllStay (s.lane l).headPosition →
          ((State.departUpTo n l s).lane l).det.AllStay ((State.departUpTo n l s).lane l).headPosition)
  | 0, _, h => ⟨h, id⟩
  | n + 1, s, h => by
    unfold State.departUpTo
    split
    · rename_i can
      obtain ⟨ok, stay⟩ := h.departOne can
      obtain ⟨ok', stay'⟩ := State.LineOk.departUpTo n ok
      exact ⟨ok', fun _ => stay' stay⟩
    · exact ⟨h, id⟩

end Sys2Proof.Machine
end

section
/-! Departure as far as it can go, the trailing marks and the drain and stall test keep the laws of the lane and of the wait
list (R10, R26, R78, R88, R103 to R105). -/

namespace Sys2Proof.Machine

variable {q : Prop}

/-! ### Departure carries the lane through -/

theorem State.carried_departUpTo : ∀ (n : Nat) (l : LaneId) (s : State),
    (s.lane l).Carried ((State.departUpTo n l s).lane l)
  | 0, _, _ => .refl _
  | n + 1, l, s => by
    unfold State.departUpTo
    split
    · rename_i can
      obtain ⟨p, ps, held, _⟩ := (Lane.canDepart_iff _).1 can
      exact (State.carried_departOne held).1.trans (State.carried_departUpTo n l _)
    · exact .refl _

/-! ### Trailing marks -/

theorem State.trailingPlaced_after (s : State) (l : LaneId) (m : MarkEntry) (ms : List MarkEntry) :
    ∃ c, (s.trailingPlaced l m ms).lane l = { s.lane l with marks := ms, counters := c } := by
  rw [State.lane_trailingPlaced]
  split <;> exact ⟨_, rfl⟩

/-- One trailing mark leaves into a free place (R105). -/
theorem State.LineOk.trailingPlaced {l : LaneId} {s : State} (h : s.LineOk q l) (trailing : (s.lane l).trailing = true)
    (room : s.sampleRoom = true) {m : MarkEntry} {ms : List MarkEntry} (marks : (s.lane l).marks = m :: ms) :
    (s.trailingPlaced l m ms).LineOk q l := by
  obtain ⟨c, lane⟩ := s.trailingPlaced_after l m ms
  obtain ⟨_, held, empty, _⟩ := (Lane.trailing_iff _).1 trailing
  obtain ⟨_, _, _, waiting⟩ := s.line_trailingPlaced l m ms
  have free := s.sampleRoom_iff.1 room
  have none : s.waitList = [] := by
    by_contra some
    have := h.waits.full some
    omega
  have count := h.line.marks
  rw [marks, List.length_cons] at count
  have move := s.placeTrailing_move l
  rw [State.placeTrailing_eq marks] at move
  refine ⟨?_, by rw [lane]; exact h.runs, ?_, fun hq => ?_⟩
  · rw [lane]
    exact ⟨h.line.room, Nat.le_of_succ_le count, h.line.held, (Lane.assemblyLawful_empty empty).2
      ((Lane.assemblyLawful_empty empty).1 h.line.assembly)⟩
  · rw [none] at waiting
    refine ⟨waiting ▸ List.nodup_nil, ?_, fun some => absurd waiting some, fun k hk => ?_, fun listed => ?_, fun waits => ?_⟩
    · rw [State.samples_trailingPlaced, List.length_append]
      exact free
    · obtain ⟨a, other⟩ := move.others hk
      rw [waiting, other, ← none]
      exact h.waits.others k hk
    · rw [waiting] at listed
      contradiction
    · rw [lane] at waits
      change (s.lane l).assembly.canTake = false at waits
      rw [empty] at waits
      contradiction
  · obtain ⟨⟨offsets, counts, parts⟩, queue⟩ := h.ranges hq
    rw [marks, List.forall_mem_cons] at offsets
    refine ⟨by rw [lane]; exact ⟨offsets.2, counts, parts⟩, ?_⟩
    rw [State.samples_trailingPlaced, List.forall_mem_append, List.forall_mem_singleton]
    exact ⟨queue, decide_eq_true offsets.1⟩

/-- The trailing marks that are placed: marks leave from the head of the list, into the sample queue, until none trails or no
place is free (R105). -/
theorem State.LineOk.placeTrailings {l : LaneId} : ∀ (n : Nat) {s : State}, s.LineOk q l →
    (State.placeTrailings n l s).LineOk q l
      ∧ (∃ ms c, (State.placeTrailings n l s).lane l = { s.lane l with marks := ms, counters := c })
      ∧ ((s.lane l).marks.length ≤ n →
          ¬(((State.placeTrailings n l s).lane l).trailing = true ∧ (State.placeTrailings n l s).sampleRoom = true))
  | 0, s, h => by
    refine ⟨h, ⟨_, _, rfl⟩, fun none ⟨trailing, _⟩ => ?_⟩
    exact ((Lane.trailing_iff _).1 trailing).2.2.2 (List.length_eq_zero_iff.1 (Nat.le_zero.1 none))
  | n + 1, s, h => by
    unfold State.placeTrailings
    split
    · rename_i goes
      obtain ⟨trailing, room⟩ := Bool.and_eq_true_iff.1 goes
      obtain ⟨m, ms, marks⟩ := List.exists_cons_of_ne_nil ((Lane.trailing_iff _).1 trailing).2.2.2
      rw [State.placeTrailing_eq marks]
      obtain ⟨ok, ⟨ms', c', lane'⟩, stops⟩ := State.LineOk.placeTrailings n (h.trailingPlaced trailing room marks)
      obtain ⟨c, lane⟩ := s.trailingPlaced_after l m ms
      refine ⟨ok, ⟨ms', c', by rw [lane', lane]⟩, fun few => stops ?_⟩
      rw [lane]
      rw [marks, List.length_cons] at few
      exact Nat.le_of_succ_le_succ few
    · rename_i stops
      exact ⟨h, ⟨_, _, rfl⟩, fun _ goes => stops (Bool.and_eq_true_iff.2 goes)⟩

/-- After the trailing marks the lane with one left waits (R105). -/
theorem State.LineOk.placeTrailingMarks {l : LaneId} {s : State} (h : s.LineOk q l) :
    (s.placeTrailingMarks l).LineOk q l
      ∧ (∃ ms c, (s.placeTrailingMarks l).lane l = { s.lane l with marks := ms, counters := c })
      ∧ (((s.placeTrailingMarks l).lane l).trailing = true → l ∈ (s.placeTrailingMarks l).waitList) := by
  obtain ⟨ok, ⟨ms, c, lane⟩, stops⟩ := State.LineOk.placeTrailings (s.lane l).marks.length h
  replace stops := stops (Nat.le_refl _)
  unfold State.placeTrailingMarks
  dsimp only
  generalize State.placeTrailings (s.lane l).marks.length l s = t at ok lane stops
  split
  · rename_i trailing
    have full : t.delivery.samples.length = 32 := by
      have noRoom : ¬t.delivery.samples.length < 32 := fun free => stops ⟨trailing, t.sampleRoom_iff.2 free⟩
      have := ok.waits.bound
      omega
    refine ⟨⟨by rw [State.lane_joinWait]; exact ok.line, by rw [State.lane_joinWait]; exact ok.runs, ?_, fun hq => ?_⟩,
      ⟨ms, c, by rw [State.lane_joinWait, lane]⟩, fun _ => ?_⟩
    · rw [State.joinWait_append]
      by_cases listed : l ∈ t.waitList
      · rw [if_pos listed]
        exact ok.waits
      · rw [if_neg listed]
        refine ⟨List.nodup_append.2 ⟨ok.waits.nodup, List.nodup_singleton _, fun a ha b hb => ?_⟩, ok.waits.bound,
          fun _ => full, fun m hm => ?_, fun _ => (Lane.hasPart_iff _).2 (.inr trailing), fun _ => by simp⟩
        · rintro rfl
          exact listed (List.mem_singleton.1 hb ▸ ha)
        · rw [List.mem_append, List.mem_singleton, or_iff_left hm]
          exact ok.waits.others m hm
    · rw [State.joinWait_append]
      exact ok.ranges hq
    · rw [State.joinWait_append]
      dsimp only
      split
      · assumption
      · simp
  · rename_i untrailing
    exact ⟨ok, ⟨ms, c, lane⟩, fun trailing => absurd trailing untrailing⟩

/-! ### The laws between two events -/

/-- The laws of lane l and of the wait list between two events (R5, R51, R57, R71, R90, R97). -/
structure State.WorkOk (q : Prop) (l : LaneId) (s : State) : Prop extends s.LineOk q l where
  rest : RestLaw (s.lane l)
  stay : (s.lane l).det.AllStay (s.lane l).headPosition
  closed : (s.lane l).state.isFlushing = true → ∀ r ∈ (s.lane l).det.runs, r.growing = false
  trailing : (s.lane l).trailing = true → l ∈ s.waitList

/-- With nothing held, in a lane that flushes, every record has been released (R57, R90). -/
theorem State.LineOk.no_runs {l : LaneId} {s : State} (h : s.LineOk q l)
    (stay : (s.lane l).det.AllStay (s.lane l).headPosition) (held : (s.lane l).held = [])
    (still : ∀ r ∈ (s.lane l).det.runs, r.growing = false) : (s.lane l).det.runs = [] := by
  refine List.eq_nil_iff_forall_not_mem.2 fun r hr => ?_
  have head : (s.lane l).headPosition = (s.lane l).nextPosition := by
    unfold Lane.headPosition
    rw [held]
  rcases stay r hr with growing | behind
  · rw [still r hr] at growing
    contradiction
  · have := (h.runs.bounds r hr).2
    omega

theorem Detector.Sound.nil {d : Detector} (h : d.runs = []) (next : Nat) : d.Sound next := by
  constructor <;> simp [h]

/-- The drain and stall test (R10, R26) ends the event with the laws in place. -/
theorem State.LineOk.settle {l : LaneId} {s : State} (h : s.LineOk q l)
    (stay : (s.lane l).det.AllStay (s.lane l).headPosition) (working : RestLaw (s.lane l))
    (closed : (s.lane l).state.isFlushing = true → ∀ r ∈ (s.lane l).det.runs, r.growing = false)
    (trailing : (s.lane l).trailing = true → l ∈ s.waitList) : (s.settle l).WorkOk q l := by
  by_cases done : (s.lane l).workEmpty = true ∧ (s.lane l).state.isFlushing = true
  · obtain ⟨empty, flushing⟩ := done
    obtain ⟨held, assembly, marks⟩ := (Lane.workEmpty_iff _).1 empty
    obtain ⟨rest, held', assembly', marks', runs'⟩ := s.lane_settle l empty flushing
    rw [h.no_runs stay held (closed flushing)] at runs'
    have unlisted : l ∉ s.waitList := fun listed => by
      rcases (Lane.hasPart_iff _).1 (h.waits.own listed) with ⟨b, ms, f, complete⟩ | trails
      · rw [assembly] at complete
        contradiction
      · exact ((Lane.trailing_iff _).1 trails).2.2.2 marks
    have none : ∀ {P : RunRecord → Prop}, ∀ r ∈ ((s.settle l).lane l).det.runs, P r := fun r hr => by
      rw [runs'] at hr
      contradiction
    refine ⟨⟨⟨?_, by simp [marks'], by rw [held']; rfl, ?_⟩, .nil runs' _, ?_, fun hq => ?_⟩, fun _ => ⟨held', runs', assembly', marks'⟩,
      none, fun _ => none, fun trails => ?_⟩
    · rw [Lane.occupancy, held']
      exact Nat.zero_le _
    · exact (Lane.assemblyLawful_empty assembly').2 fun q qs some => by
        rw [held'] at some
        contradiction
    · refine h.waits.of_same (fun m => (s.settle_move l).others) ⟨s.waitList_settle l, s.samples_settle l⟩
        (fun listed => absurd listed unlisted) fun waits => ?_
      rw [assembly'] at waits
      contradiction
    · refine (h.ranges hq).of_same ⟨s.waitList_settle l, s.samples_settle l⟩ fun _ => ?_
      unfold LaneParcelLaw
      rw [marks', held', assembly']
      exact ⟨by simp, by simp, rfl⟩
    · exact absurd marks' ((Lane.trailing_iff _).1 trails).2.2.2
  · rw [State.settle_none done]
    exact ⟨h, working, stay, closed, trailing⟩

/-- What follows departure: the trailing marks, and the drain and stall test (R78, R105, log 10). -/
theorem State.LineOk.finish {l : LaneId} {s : State} (h : s.LineOk q l)
    (stay : (s.lane l).det.AllStay (s.lane l).headPosition) (working : (s.lane l).state.atRest = false)
    (closed : (s.lane l).state.isFlushing = true → ∀ r ∈ (s.lane l).det.runs, r.growing = false) :
    ((s.placeTrailingMarks l).settle l).WorkOk q l := by
  obtain ⟨ok, ⟨ms, c, lane⟩, trailing⟩ := h.placeTrailingMarks
  refine ok.settle ?_ ?_ ?_ trailing
  · rw [lane]
    exact stay
  · rw [lane]
    exact fun rest => absurd (rest.symm.trans working) (by decide)
  · rw [lane]
    exact closed

/-- Departure as far as it can go (R78). -/
theorem State.LineOk.depart {l : LaneId} {s : State} (h : s.LineOk q l)
    (stay : (s.lane l).det.AllStay (s.lane l).headPosition) (working : (s.lane l).state.atRest = false)
    (closed : (s.lane l).state.isFlushing = true → ∀ r ∈ (s.lane l).det.runs, r.growing = false) :
    (s.depart l).WorkOk q l := by
  obtain ⟨ok, stays⟩ := State.LineOk.departUpTo (s.lane l).occupancy h
  have carried := State.carried_departUpTo (s.lane l).occupancy l s
  refine ok.finish (stays stay) ?_ ?_
  · rw [carried.state]
    exact working
  · rw [carried.state]
    exact fun flushing => carried.settled (closed flushing)

/-- The flush that begins on a lane (R57, R88). -/
theorem State.LineOk.flush {l : LaneId} {s : State} (h : s.LineOk q l) (working : (s.lane l).state.atRest = false) :
    (s.flush l).WorkOk q l := by
  have cut : (s.modDet l Detector.cut).lane l = { s.lane l with det := (s.lane l).det.cut } := State.lane_modLane_same s l _
  have ok : (s.modDet l Detector.cut).LineOk q l := by
    refine ⟨?_, ?_, h.waits.of_same (fun m hm => ⟨_, s.lane_modLane_ne _ hm⟩) ⟨rfl, rfl⟩ (fun listed => ?_) fun waits => ?_,
      fun hq => (h.ranges hq).of_same ⟨rfl, rfl⟩ fun law => by rw [cut]; exact law⟩
    · rw [cut]
      exact ⟨h.line.room, h.line.marks, h.line.held, h.line.assembly⟩
    · rw [cut]
      exact h.runs.cut
    · rw [cut]
      exact h.waits.own listed
    · rw [cut] at waits
      exact h.waits.complete waits
  have still : ∀ r ∈ ((s.modDet l Detector.cut).lane l).det.runs, r.growing = false := by
    rw [cut]
    exact (s.lane l).det.growing_cut
  have state : ((s.modDet l Detector.cut).lane l).state = (s.lane l).state := by rw [cut]
  unfold State.flush
  dsimp only
  generalize s.modDet l Detector.cut = s1 at ok still state
  have departed := (State.LineOk.departUpTo (s1.lane l).occupancy ok).1
  have carried := State.carried_departUpTo (s1.lane l).occupancy l s1
  generalize State.departUpTo (s1.lane l).occupancy l s1 = s2 at departed carried
  obtain ⟨released, stay⟩ := departed.releaseRuns
  have kept := (s2.lineKept_releaseRuns l).1
  refine released.finish stay ?_ fun _ => kept.settled (carried.settled still)
  rw [kept.state, carried.state, state]
  exact working

end Sys2Proof.Machine
end

section
/-! The steps that leave the wait list and the sample queue as they are. -/

namespace Sys2Proof.Machine

section
variable {s t : State} {l : LaneId}

theorem State.QueueSame.issue (h : s.QueueSame t) (n : Notice) : s.QueueSame (t.issue n) :=
  h.trans ⟨rfl, by rw [State.delivery_issue, DeliveryPort.samples_issue]⟩

theorem State.QueueSame.modLane (h : s.QueueSame t) (m : LaneId) (f : Lane → Lane) : s.QueueSame (t.modLane m f) := h

theorem State.QueueSame.wake (h : s.QueueSame t) (m : LaneId) : s.QueueSame (t.wake m) := by
  rw [State.wake_offeredAgain]
  exact h

theorem State.QueueSame.foldl {α : Type} (f : State → α → State) (step : ∀ (u : State) (a : α), u.QueueSame (f u a)) :
    ∀ (xs : List α) {s t : State}, s.QueueSame t → s.QueueSame (xs.foldl f t)
  | [], _, _, h => h
  | a :: xs, _, _, h => State.QueueSame.foldl f step xs (h.trans (step _ a))

theorem CheckerOnly.queueSame (h : CheckerOnly s t) : s.QueueSame t := ⟨h.waitList, h.samples⟩

end

/-! ### The hum canceller and the changes of state -/

theorem State.queueSame_swap (s : State) (k : ProfileId) (a : Option LaneId) (q : SeqNum) : s.QueueSame (s.swap k a q) :=
  State.QueueSame.issue (t := { s with profiles := _, lanes := _ }) (.refl s) _

theorem State.queueSame_userLeft (s : State) (k : Option ProfileId) : s.QueueSame (s.userLeft k) := by
  unfold State.userLeft State.swapIfUnused
  split
  · split
    · exact s.queueSame_swap _ _ _
    · exact .refl s
  · exact .refl s

theorem State.queueSame_humBegin (s : State) (l : LaneId) (p : Option ProfileId) (seq : SeqNum) :
    s.QueueSame (s.humBegin l p seq) := by
  unfold State.humBegin
  split
  · rename_i k
    have swapped : s.QueueSame (if (s.profile k).swapPending then s.swap k (some l) seq else s) := by
      split
      · exact s.queueSame_swap _ _ _
      · exact .refl s
    dsimp only
    generalize (if (s.profile k).swapPending then s.swap k (some l) seq else s) = s1 at swapped ⊢
    have turned : s.QueueSame
        (if (s1.lane l).hum.profile ≠ some k ∨ (s1.lane l).hum.restart = true then
          s1.modHum l fun _ => { profile := some k, index := (s1.profile k).restartIndex, restart := false }
        else s1) := by
      split
      · exact swapped
      · exact swapped
    split
    · exact turned.trans (State.queueSame_userLeft _ _)
    · exact turned
  · exact State.queueSame_userLeft _ _

theorem State.queueSame_changeState (s : State) (l : LaneId) (st : LaneState) : s.QueueSame (s.changeState l st) := by
  unfold State.changeState
  dsimp only
  have changed : s.QueueSame ((s.modLane l fun ln =>
      { ln with state := st, timer := if st = .running false then ln.timer else ln.timer.stop }).wake l) :=
    ((State.QueueSame.refl s).modLane l _).wake l
  split
  · exact (changed.trans (State.queueSame_userLeft _ _)).trans (State.checkerLoss_only _ _ _ _).queueSame
  · exact changed

theorem State.queueSame_becomeOff (s : State) (l : LaneId) : s.QueueSame (s.becomeOff l) :=
  (s.queueSame_changeState l .off).modLane l _

theorem State.queueSame_enterRunning (s : State) (l : LaneId) : s.QueueSame (s.enterRunning l) := by
  have reel : ∀ u : State, u.QueueSame (u.generatorReel l) := fun u => by
    unfold State.generatorReel
    split
    · exact .refl u
    · exact .refl u
  unfold State.enterRunning
  dsimp only
  split
  · exact ((s.queueSame_changeState l (.running false)).modLane l _ |>.modLane l _).trans (reel _)
  · exact (s.queueSame_changeState l (.running false)).modLane l _

theorem State.queueSame_reelStartResync (s : State) (l : LaneId) : s.QueueSame (s.reelStartResync l) := by
  unfold State.reelStartResync
  dsimp only
  split
  · split
    · exact .refl s
    · exact .refl s
  · exact .refl s

/-! ### The detector -/

theorem State.queueSame_missRun (s : State) (l : LaneId) (seq : SeqNum) : s.QueueSame (s.missRun l seq) := by
  unfold State.missRun
  dsimp only
  split
  · exact .refl s
  · exact State.QueueSame.issue (t := { s.count l .runsMissed 1 with fullNoticed := true }) (.refl s) _

theorem State.queueSame_joinRun (s : State) (l : LaneId) (c : LaneConfig) (seq : SeqNum) (cs : Causes) :
    s.QueueSame (s.joinRun l c seq cs) := by
  have opens : s.QueueSame (s.openNewRun l seq cs) := by
    unfold State.openNewRun
    split
    · exact .refl s
    · exact s.queueSame_missRun l seq
  unfold State.joinRun State.openRun
  split
  · exact .refl s
  · dsimp only
    split
    · split
      · exact .refl s
      · exact opens
    · exact opens

theorem State.queueSame_calmSample (s : State) (l : LaneId) (c : LaneConfig) (v : Sample) :
    s.QueueSame (s.calmSample l c v) := by
  unfold State.calmSample State.closeRun
  dsimp only
  split
  · split
    · refine State.QueueSame.trans ?_ (State.queueSame_releaseRuns _ l)
      split
      · exact .refl s
      · exact .refl s
    · exact .refl s
  · exact .refl s

theorem State.queueSame_detect (s : State) (l : LaneId) (c : LaneConfig) (seq : SeqNum) (spans : List (Causes × Nat))
    (v : Sample) : s.QueueSame (s.detect l c seq spans v) := by
  unfold State.detect
  dsimp only
  have began : s.QueueSame (s.modDet l fun d => d.beginSpans spans) := .refl s
  generalize (s.modDet l fun d => d.beginSpans spans) = s1 at began
  refine State.QueueSame.modLane ?_ l _
  split
  · exact (began.trans (s1.queueSame_joinRun l c seq _)).modLane l _
  · split
    · exact began.trans (s1.queueSame_joinRun l c seq _)
    · exact began.trans (s1.queueSame_calmSample l c v)

/-! ### Entry -/

theorem State.queueSame_watch (s : State) (l : LaneId) (seq : SeqNum) (ws : List Sample) : s.QueueSame (s.watch l seq ws) := by
  unfold State.watch
  split
  · exact State.QueueSame.issue (t := s.count l .levelHits 1) (.refl s) _
  · exact .refl s

theorem State.queueSame_continuity (s : State) (l : LaneId) (n : SeqNum) : s.QueueSame (s.continuity l n) := by
  unfold State.continuity
  dsimp only
  refine State.QueueSame.modLane ?_ l _
  split
  · exact .refl s
  · exact State.QueueSame.issue (t := (s.count l .gaps 1).count l .missingParcels _) (.refl s) _

theorem State.queueSame_spliceLate (s : State) (l : LaneId) (seq : SeqNum) : s.QueueSame (s.spliceLate l seq) :=
  State.QueueSame.issue (t := s.count l .lateSplices 1) (.refl s) _

theorem State.queueSame_lateMarks (s : State) (l : LaneId) : s.QueueSame (s.lateMarks l) := by
  unfold State.lateMarks
  split
  · exact .refl s
  · exact State.QueueSame.foldl _ (fun u (m : MarkEntry) => u.queueSame_spliceLate l m.seq) _ ((State.QueueSame.refl s).modLane l _)

theorem State.queueSame_spliceResync (s : State) (l : LaneId) (p : Option ProfileId) : s.QueueSame (s.spliceResync l p) := by
  unfold State.spliceResync
  split
  · split
    · exact .refl s
    · exact .refl s
  · exact .refl s

theorem State.queueSame_humAdvance (s : State) (l : LaneId) (p : Option ProfileId) : s.QueueSame (s.humAdvance l p) := by
  unfold State.humAdvance
  split
  · exact .refl s
  · exact .refl s

theorem State.queueSame_enterSample (s : State) (l : LaneId) (e : EntryPlan) (i : Nat) (raw : Sample) :
    s.QueueSame (s.enterSample l e i raw) := by
  unfold State.enterSample
  dsimp only
  refine State.QueueSame.modLane (State.QueueSame.trans ?_ (State.queueSame_detect _ l _ _ _ _)) l _
  refine State.QueueSame.trans ?_ (State.queueSame_humAdvance _ l _)
  split
  · exact s.queueSame_spliceResync l _
  · exact .refl s

theorem State.queueSame_enterSamples : ∀ (vs : List Sample) (i : Nat) (l : LaneId) (e : EntryPlan) (s : State),
    s.QueueSame (State.enterSamples vs i l e s)
  | [], _, _, _, s => .refl s
  | v :: vs, i, l, e, s => (s.queueSame_enterSample l e i v).trans (State.queueSame_enterSamples vs (i + 1) l e _)

theorem State.queueSame_prepareRestore (s : State) (l : LaneId) (e : EntryPlan) (ws : List Sample) :
    s.QueueSame (s.prepareRestore l e ws) := by
  unfold State.prepareRestore
  dsimp only
  have followed := ((s.queueSame_watch l e.seq ws).modLane l fun ln => ln.resolveSplices e.seq).trans
    (State.queueSame_continuity _ l e.seq)
  refine State.QueueSame.trans ?_ (State.queueSame_humBegin _ l _ _)
  refine State.QueueSame.trans ?_ (State.queueSame_lateMarks _ l)
  split
  · exact followed
  · exact followed

end Sys2Proof.Machine
end

section
/-! The entry of a parcel keeps the laws of the hold line, the run list and the wait list (R16, R71 to R73). -/

namespace Sys2Proof.Machine

/-! ### What an entry changes of a lane besides its hold line and its runs -/

/-- Of lane x there may differ in y the span flags of its marks, its counters, its expectation, its hum state and what the
detector remembers of the samples. -/
def Lane.Noted (x y : Lane) : Prop :=
  ∃ ms c e d h, y = { x with marks := ms, counters := c, expected := e, det := d, hum := h }
    ∧ ms.map MarkEntry.offset = x.marks.map MarkEntry.offset ∧ d.runs = x.det.runs
    ∧ d.calmCount = x.det.calmCount ∧ d.calmStart = x.det.calmStart

theorem Lane.Noted.refl (x : Lane) : x.Noted x := ⟨_, _, _, _, _, rfl, rfl, rfl, rfl, rfl⟩

theorem Lane.Noted.trans {x y z : Lane} (h : x.Noted y) (k : y.Noted z) : x.Noted z := by
  obtain ⟨ms, c, e, d, a, rfl, offsets, runs, count, start⟩ := h
  obtain ⟨ms', c', e', d', a', rfl, offsets', runs', count', start'⟩ := k
  exact ⟨ms', c', e', d', a', rfl, offsets'.trans offsets, runs'.trans runs, count'.trans count, start'.trans start⟩

section
variable {x : Lane} {s : State} {l : LaneId}

theorem Lane.Noted.modLane (h : x.Noted (s.lane l)) (f : Lane → Lane) (noted : ∀ y : Lane, y.Noted (f y)) :
    x.Noted ((s.modLane l f).lane l) := by
  rw [State.lane_modLane_same]
  exact h.trans (noted _)

theorem Lane.Noted.count (h : x.Noted (s.lane l)) (c : LaneCounter) (n : Nat) : x.Noted ((s.count l c n).lane l) :=
  h.modLane _ fun _ => ⟨_, _, _, _, _, rfl, rfl, rfl, rfl, rfl⟩

theorem Lane.Noted.humOnly {t : State} (h : x.Noted (s.lane l)) (hum : HumOnly s t) : x.Noted (t.lane l) := by
  obtain ⟨a, lane⟩ := hum l
  rw [lane]
  exact h.trans ⟨_, _, _, _, _, rfl, rfl, rfl, rfl, rfl⟩

theorem Lane.Noted.watch (h : x.Noted (s.lane l)) (seq : SeqNum) (ws : List Sample) :
    x.Noted ((s.watch l seq ws).lane l) := by
  unfold State.watch
  split
  · exact h.count _ _
  · exact h

theorem Lane.Noted.continuity (h : x.Noted (s.lane l)) (n : SeqNum) : x.Noted ((s.continuity l n).lane l) := by
  unfold State.continuity
  dsimp only
  refine Lane.Noted.modLane ?_ _ fun _ => ⟨_, _, _, _, _, rfl, rfl, rfl, rfl, rfl⟩
  split
  · exact h
  · exact (h.count .gaps 1).count .missingParcels _

theorem Lane.Noted.lateMarks (h : x.Noted (s.lane l)) : x.Noted ((s.lateMarks l).lane l) := by
  have late : ∀ (ms : List MarkEntry) (u : State), x.Noted (u.lane l) →
      x.Noted ((ms.foldl (fun u (m : MarkEntry) => u.spliceLate l m.seq) u).lane l) := by
    intro ms
    induction ms with
    | nil => exact fun _ => id
    | cons m ms ih => exact fun u k => ih _ (k.count .lateSplices 1)
  unfold State.lateMarks
  split
  · exact h
  · refine late _ _ (h.modLane _ fun y => ⟨_, _, _, _, _, rfl, ?_, rfl, rfl, rfl⟩)
    rw [List.map_map]
    refine List.map_congr_left fun m _ => ?_
    simp only [Function.comp]
    split <;> rfl

theorem Lane.noted_resolveSplices (y : Lane) (seq : SeqNum) : y.Noted (y.resolveSplices seq) := by
  refine ⟨_, _, _, _, _, rfl, ?_, rfl, rfl, rfl⟩
  rw [List.map_map]
  refine List.map_congr_left fun m _ => ?_
  simp only [Function.comp]
  split <;> rfl

theorem Lane.Noted.clearHistory (h : x.Noted (s.lane l)) : x.Noted ((s.modDet l Detector.clearHistory).lane l) :=
  h.modLane _ fun _ => ⟨_, _, _, _, _, rfl, rfl, rfl, rfl, rfl⟩

theorem Lane.Noted.prepareRestore (h : x.Noted (s.lane l)) (e : EntryPlan) (ws : List Sample) :
    x.Noted ((s.prepareRestore l e ws).lane l) := by
  unfold State.prepareRestore
  dsimp only
  have followed := (((h.watch e.seq ws).modLane (fun ln => ln.resolveSplices e.seq)
    fun y => y.noted_resolveSplices e.seq).continuity e.seq)
  refine Lane.Noted.humOnly (Lane.Noted.lateMarks ?_) (HumOnly.humBegin _ l _ _)
  split
  · exact followed.clearHistory
  · exact followed

end

theorem HumOnly.spliceResync (s : State) (l : LaneId) (p : Option ProfileId) : HumOnly s (s.spliceResync l p) := by
  unfold State.spliceResync
  split
  · split
    · exact .modHum s l _
    · exact .refl s
  · exact .refl s

theorem HumOnly.humAdvance (s : State) (l : LaneId) (p : Option ProfileId) : HumOnly s (s.humAdvance l p) := by
  unfold State.humAdvance
  split
  · exact .modHum s l _
  · exact .refl s

/-! ### The samples of a parcel -/

theorem Lane.headPosition_append {x : Lane} {p : HeldParcel} (place : p.firstPosition = x.nextPosition)
    (departed : p.departed = 0) {y : Lane} (held : y.held = x.held ++ [p]) : y.headPosition = x.headPosition := by
  unfold Lane.headPosition
  rw [held]
  cases x.held with
  | nil =>
    change p.firstPosition + p.departed = x.nextPosition
    rw [place, departed, Nat.add_zero]
  | cons q qs => rfl

/-- A parcel joins the tail of a hold line (R72). -/
theorem heldFrom_append {next : Nat} {p : HeldParcel} (place : p.firstPosition = next) (departed : p.departed = 0)
    (some : p.samples ≠ []) (count : p.samples.length = p.count) : ∀ {held : List HeldParcel}, heldFrom next held = true →
      heldFrom (next + p.count) (held ++ [p]) = true
  | [], _ => by simp [heldFrom, some, departed, count, place]
  | q :: qs, h => by
    obtain ⟨own, last, near, rest⟩ := (heldFrom_cons next q qs).1 h
    refine (heldFrom_cons _ q (qs ++ [p])).2 ⟨own, by simp, fun r rs e => ?_, heldFrom_append place departed some count rest⟩
    cases qs with
    | nil =>
      obtain ⟨rfl, _⟩ := List.cons.inj e
      exact ⟨(last rfl).trans place.symm, departed⟩
    | cons a as =>
      obtain ⟨rfl, _⟩ := List.cons.inj e
      exact near a as rfl

/-- Lane y is lane x with i samples of a parcel entered behind its hold line, and the detector past them (R16, R72). -/
def Lane.Entering (x : Lane) (e : EntryPlan) (i : Nat) (y : Lane) : Prop :=
  ∃ vs d c h,
    y = { x with
          held := if i = 0 then x.held else x.held ++ [{ e.heldParcel x.nextPosition 0 with samples := vs }]
          nextPosition := x.nextPosition + i
          det := d, counters := c, hum := h }
      ∧ vs.length = i ∧ d.Sound (x.nextPosition + i) ∧ d.AllStay x.headPosition

theorem updateLast_append {α : Type} (f : α → α) (xs : List α) (a : α) : updateLast f (xs ++ [a]) = xs ++ [f a] := by
  induction xs with
  | nil => rfl
  | cons x xs ih =>
    cases xs with
    | nil => rfl
    | cons y ys => exact congrArg (x :: ·) ih

/-- One more sample enters (R16, R52, R72). -/
theorem Lane.Entering.enterSample {x : Lane} {e : EntryPlan} {i : Nat} {s : State} {l : LaneId}
    (h : x.Entering e i (s.lane l)) (raw : Sample) : x.Entering e (i + 1) ((s.enterSample l e i raw).lane l) := by
  obtain ⟨vs, d, c, a, lane, length, sound, stay⟩ := h
  unfold State.enterSample
  dsimp only
  have hum : HumOnly s ((if e.spliceOffsets.contains i then s.spliceResync l e.config.humProfile else s).humAdvance l
      e.config.humProfile) := by
    refine HumOnly.trans ?_ (HumOnly.humAdvance _ l _)
    split
    · exact .spliceResync s l _
    · exact .refl s
  generalize State.cancelled _ l e.config.humProfile e.config.humGain raw = v
  generalize State.humAdvance _ l e.config.humProfile = s1 at hum
  obtain ⟨a1, lane1⟩ := hum l
  rw [lane] at lane1
  dsimp only at lane1
  have head : (s1.lane l).headPosition = x.headPosition := by
    by_cases first : i = 0
    · rw [lane1, if_pos first]
      unfold Lane.headPosition
      dsimp only
      rw [first, Nat.add_zero]
    · exact Lane.headPosition_append (p := { e.heldParcel x.nextPosition 0 with samples := vs }) rfl rfl
        (by rw [lane1]; exact if_neg first)
  have next : (s1.lane l).nextPosition = x.nextPosition + i := by rw [lane1]
  have runs : (s1.lane l).det = d := by rw [lane1]
  obtain ⟨d2, c2, lane2, sound2, stay2⟩ := State.detAfter_detect (s := s1) (l := l) (by rw [next, runs]; exact sound)
    (by rw [head, runs]; exact stay) e.config e.seq (e.spansAt i) v
  rw [State.lane_modLane_same, lane2]
  rw [head] at stay2
  rw [next] at sound2
  refine ⟨vs ++ [v], d2, c2, a1, ?_, by rw [List.length_append, length]; rfl, sound2, stay2⟩
  unfold Lane.append
  rw [lane1]
  by_cases first : i = 0
  · have none : vs = [] := List.length_eq_zero_iff.1 (length.trans first)
    simp [first, none, EntryPlan.heldParcel]
  · simp only [first, if_false, Nat.succ_ne_zero, updateLast_append, Nat.add_assoc]

theorem Lane.Entering.enterSamples {x : Lane} {e : EntryPlan} {l : LaneId} : ∀ (ws : List Sample) (i : Nat) (s : State),
    x.Entering e i (s.lane l) → x.Entering e (i + ws.length) ((State.enterSamples ws i l e s).lane l)
  | [], _, _, h => h
  | w :: ws, i, s, h => by
    have rest := Lane.Entering.enterSamples ws (i + 1) _ (h.enterSample w)
    rw [Nat.add_assoc, Nat.add_comm 1] at rest
    exact rest

end Sys2Proof.Machine
end

section
/-! A parcel's entry, the deadlines before it, and the start of a lane keep the laws of the lane and of the wait list (R8,
R15 to R17, R86). -/

namespace Sys2Proof.Machine

variable {q : Prop}

/-! ### Carrying the laws over a change of the lane -/

/-- A part that waits stays with its assembly, in a lane that does not flush before. -/
theorem Lane.hasPart_of_assembly {x y : Lane} (still : x.state.isFlushing = false) (assembly : y.assembly = x.assembly)
    (part : x.hasPart = true) : y.hasPart = true := by
  rcases (Lane.hasPart_iff x).1 part with ⟨b, ms, f, complete⟩ | trailing
  · exact (Lane.hasPart_iff y).2 (.inl ⟨b, ms, f, assembly.trans complete⟩)
  · exact absurd (still.symm.trans ((Lane.trailing_iff x).1 trailing).1) (by decide)

theorem State.LineOk.of_move {l : LaneId} {s t : State} (h : s.LineOk q l) (moved : LaneMove l s t) (same : s.QueueSame t)
    (line : (t.lane l).HeldOk) (runs : (t.lane l).det.Sound (t.lane l).nextPosition)
    (part : (s.lane l).hasPart = true → (t.lane l).hasPart = true)
    (complete : (t.lane l).assembly.canTake = false → (s.lane l).assembly.canTake = false)
    (parcels : LaneParcelLaw (s.lane l) → LaneParcelLaw (t.lane l)) : t.LineOk q l :=
  ⟨line, runs, h.waits.of_same (fun _ => moved.others) same (fun listed => part (h.waits.own listed)) fun waits =>
    h.waits.complete (complete waits), fun hq => (h.ranges hq).of_same same parcels⟩

theorem Lane.Noted.line {x y : Lane} (h : x.Noted y) (ok : x.HeldOk) : y.HeldOk := by
  obtain ⟨ms, c, e, d, a, rfl, offsets, _⟩ := h
  have length := congrArg List.length offsets
  rw [List.length_map, List.length_map] at length
  exact ⟨ok.room, length ▸ ok.marks, ok.held, ok.assembly⟩

theorem marks_inRange_congr {ms ns : List MarkEntry} (offsets : ms.map MarkEntry.offset = ns.map MarkEntry.offset)
    (h : ∀ m ∈ ns, m.offset ≤ 511) : ∀ m ∈ ms, m.offset ≤ 511 := fun m hm => by
  have listed : m.offset ∈ ns.map MarkEntry.offset := offsets ▸ List.mem_map_of_mem hm
  obtain ⟨n, hn, same⟩ := List.mem_map.1 listed
  exact same ▸ h n hn

theorem Lane.Noted.parcels {x y : Lane} (h : x.Noted y) (law : LaneParcelLaw x) : LaneParcelLaw y := by
  obtain ⟨ms, c, e, d, a, rfl, offsets, _⟩ := h
  exact ⟨marks_inRange_congr offsets law.1, law.2⟩

theorem Lane.Noted.runs {x y : Lane} (h : x.Noted y) {next : Nat} (sound : x.det.Sound next) : y.det.Sound next := by
  obtain ⟨ms, c, e, d, a, rfl, _, runs, count, start⟩ := h
  exact sound.of_same runs (.inl ⟨count, start⟩)

theorem Lane.Noted.stay {x y : Lane} (h : x.Noted y) (stay : x.det.AllStay x.headPosition) : y.det.AllStay y.headPosition := by
  obtain ⟨ms, c, e, d, a, rfl, _, runs, _⟩ := h
  unfold Detector.AllStay
  rw [runs]
  exact stay

/-- What is noted of a lane leaves its state, its place and its hold line. -/
theorem Lane.Noted.place {x y : Lane} (h : x.Noted y) :
    y.state = x.state ∧ y.held = x.held ∧ y.nextPosition = x.nextPosition ∧ y.assembly = x.assembly
      ∧ y.allocation = x.allocation ∧ y.marks.map MarkEntry.offset = x.marks.map MarkEntry.offset
      ∧ y.config = x.config := by
  obtain ⟨ms, c, e, d, a, rfl, offsets, _⟩ := h
  exact ⟨rfl, rfl, rfl, rfl, rfl, offsets, rfl⟩

/-- A whole parcel behind a hold line with room for it (R72, R73). -/
theorem Lane.HeldOk.append {x y : Lane} (h : x.HeldOk) {p : HeldParcel} (held : y.held = x.held ++ [p])
    (next : y.nextPosition = x.nextPosition + p.count) (marks : y.marks.length = x.marks.length)
    (assembly : y.assembly = x.assembly) (allocation : y.allocation = x.allocation)
    (place : p.firstPosition = x.nextPosition) (departed : p.departed = 0) (some : p.samples ≠ [])
    (count : p.samples.length = p.count) (room : x.occupancy + p.count ≤ x.allocation) : y.HeldOk := by
  refine ⟨?_, marks ▸ h.marks, ?_, ?_⟩
  · rw [Lane.occupancy, held, List.map_append, List.sum_append, allocation]
    simpa [count, Lane.occupancy] using room
  · rw [held, next]
    exact heldFrom_append place departed some count h.held
  · have lawful := h.assembly
    cases builds : x.assembly with
    | empty =>
      rw [Lane.assemblyLawful_empty (assembly.trans builds), held]
      rw [Lane.assemblyLawful_empty builds] at lawful
      intro q qs e
      cases line : x.held with
      | nil =>
        rw [line] at e
        obtain ⟨rfl, _⟩ := List.cons.inj e
        exact departed
      | cons r rs =>
        rw [line] at e
        obtain ⟨rfl, _⟩ := List.cons.inj e
        exact lawful r rs line
    | building b =>
      rw [Lane.assemblyLawful_building (assembly.trans builds), held]
      rw [Lane.assemblyLawful_building builds] at lawful
      obtain ⟨q, qs, line, fields⟩ := lawful
      exact ⟨q, qs ++ [p], by rw [line]; rfl, fields⟩
    | complete b ms f =>
      rw [Lane.assemblyLawful_complete (assembly.trans builds), held]
      rw [Lane.assemblyLawful_complete builds] at lawful
      refine ⟨lawful.1, fun q qs e => ?_⟩
      cases line : x.held with
      | nil =>
        rw [line] at e
        obtain ⟨rfl, _⟩ := List.cons.inj e
        exact departed
      | cons r rs =>
        rw [line] at e
        obtain ⟨rfl, _⟩ := List.cons.inj e
        exact lawful.2 r rs line

/-! ### Entry into a hold line -/

section
variable {l : LaneId} {s : State} (h : s.LineOk q l) (stay : (s.lane l).det.AllStay (s.lane l).headPosition)
  (running : (s.lane l).state = .running false) {ws : List Sample} (some : ws ≠ []) (limit : ws.length ≤ 512)
  (room : (s.lane l).occupancy + ws.length ≤ (s.lane l).allocation)
include h stay running some limit room

/-- A parcel enters on route RESTORE, and departure follows (R16, R78). -/
theorem State.LineOk.enterRestore (seq : SeqNum) (resumed : Bool) : (s.enterRestore l seq ws resumed).WorkOk q l := by
  unfold State.enterRestore
  dsimp only
  generalize isPlan : (s.lane l).entryPlan seq ws resumed = e
  have count : e.count = ws.length := by
    rw [← isPlan]
    rfl
  have prepared := (Lane.Noted.refl (s.lane l)).prepareRestore e ws
  have queues := s.queueSame_prepareRestore l e ws
  have moved := s.prepareRestore_move l e ws
  have phase : ((s.prepareRestore l e ws).lane l).hum.profile = e.config.humProfile := State.phaseProfile_humBegin _ _ _ _
  generalize s.prepareRestore l e ws = u at prepared queues moved phase
  obtain ⟨state, held, next, assembly, allocation, offsets, _⟩ := prepared.place
  have length := congrArg List.length offsets
  rw [List.length_map, List.length_map] at length
  have sound : (u.lane l).det.Sound (u.lane l).nextPosition := next ▸ prepared.runs h.runs
  have entering := Lane.Entering.enterSamples (x := u.lane l) (e := e) ws 0 u
    ⟨[], _, _, _, rfl, rfl, sound, prepared.stay stay⟩
  have queues' := queues.trans (State.queueSame_enterSamples ws 0 l e u)
  have moved' := moved.trans (State.enterSamples_move ws 0 l e u phase)
  generalize State.enterSamples ws 0 l e u = v at entering queues' moved'
  obtain ⟨vs, d, c, a, lane, size, sound', stay'⟩ := entering
  rw [Nat.zero_add] at size sound' lane
  have notFirst : ws.length ≠ 0 := fun none => some (List.length_eq_zero_iff.1 none)
  rw [if_neg notFirst] at lane
  obtain ⟨b, counted⟩ : ∃ b, (v.countEntered l ws.length).lane l = { v.lane l with counters := b } := by
    unfold State.countEntered
    rw [State.lane_count_same, State.lane_count_same]
    exact ⟨_, rfl⟩
  rw [lane] at counted
  dsimp only at counted
  have still : (s.lane l).state.isFlushing = false := by rw [running]; rfl
  refine State.LineOk.depart (h.of_move (moved'.trans (v.countEntered_move l _)) queues' ?_ ?_ ?_ ?_ fun law => ?_) ?_ ?_ ?_
  · rw [counted]
    refine (prepared.line h.line).append (p := { e.heldParcel (u.lane l).nextPosition 0 with samples := vs }) rfl ?_ rfl rfl
      rfl rfl rfl ?_ ?_ ?_
    · exact congrArg ((u.lane l).nextPosition + ·) count.symm
    · exact fun none => notFirst (size.symm.trans (List.length_eq_zero_iff.2 none))
    · exact size.trans count.symm
    · rw [Lane.occupancy, held, allocation]
      exact (congrArg (_ + ·) count : _ = _) ▸ room
  · rw [counted]
    exact sound'
  · rw [counted]
    exact Lane.hasPart_of_assembly still assembly
  · rw [counted, ← assembly]
    exact id
  · rw [counted]
    obtain ⟨marks, counts, parts⟩ := prepared.parcels law
    refine ⟨marks, List.forall_mem_append.2 ⟨counts, List.forall_mem_singleton.2 ⟨?_, ?_⟩⟩, parts⟩
    · exact (count ▸ Nat.pos_of_ne_zero notFirst : 1 ≤ e.count)
    · exact (count ▸ limit : e.count ≤ 512)
  · rw [counted]
    have same : (u.lane l).headPosition = Lane.headPosition { u.lane l with
        held := (u.lane l).held ++ [{ e.heldParcel (u.lane l).nextPosition 0 with samples := vs }]
        nextPosition := (u.lane l).nextPosition + ws.length, det := d, counters := b, hum := a } :=
      (Lane.headPosition_append (x := u.lane l) rfl rfl rfl).symm
    rw [← same]
    exact stay'
  · rw [counted]
    change (u.lane l).state.atRest = false
    rw [state, running]
    rfl
  · rw [counted]
    intro flushing
    change (u.lane l).state.isFlushing = true at flushing
    rw [state, still] at flushing
    contradiction

omit stay in
/-- A parcel enters on route PASS, MUTE or GENERATE, and departure follows (R16, R70, R78). -/
theorem State.LineOk.enterPlain (seq : SeqNum) (resumed : Bool) : (s.enterPlain l seq ws resumed).WorkOk q l := by
  unfold State.enterPlain
  dsimp only
  have noted := ((((Lane.Noted.refl (s.lane l)).watch seq ws).continuity seq).modLane (fun ln => ln.resolveSplices seq)
    fun y => y.noted_resolveSplices seq).lateMarks
  have queues := (((s.queueSame_watch l seq ws).trans (State.queueSame_continuity _ l seq)).modLane l
    fun ln => ln.resolveSplices seq).trans (State.queueSame_lateMarks _ l)
  have moved := (((s.watch_move l seq ws).trans (State.continuity_move _ l seq)).trans
    (LaneMove.modLane _ fun ln => ln.resolveSplices seq)).trans (State.lateMarks_move _ l)
  generalize (((s.watch l seq ws).continuity l seq).modLane l fun ln => ln.resolveSplices seq).lateMarks l = u
    at noted queues moved
  obtain ⟨state, held, next, assembly, allocation, _⟩ := noted.place
  have cut : (u.modDet l fun d => d.plainEntry ws).lane l = { u.lane l with det := (u.lane l).det.plainEntry ws } :=
    State.lane_modLane_same u l _
  have sound : ((u.lane l).det.plainEntry ws).Sound (u.lane l).nextPosition :=
    (next ▸ noted.runs h.runs : (u.lane l).det.Sound (u.lane l).nextPosition).cut.clearHistory.of_same rfl (.inl ⟨rfl, rfl⟩)
  have released := State.detAfter_releaseRuns (s := u.modDet l fun d => d.plainEntry ws) (l := l)
    (next := (u.lane l).nextPosition) (by rw [cut]; exact sound)
  have queues' := queues.trans (State.queueSame_releaseRuns (u.modDet l fun d => d.plainEntry ws) l)
  have moved' := (moved.trans (LaneMove.modDet u (fun d => d.plainEntry ws) fun d =>
    sublist_of_eq (d.numbers_plainEntry ws))).trans (State.releaseRuns_move _ l)
  rw [cut] at released
  generalize (u.modDet l fun d => d.plainEntry ws).releaseRuns l = v at released queues' moved'
  obtain ⟨d, c, lane, sound', stay'⟩ := released
  obtain ⟨a, hum⟩ := HumOnly.humBegin v l none seq l
  have queues'' := queues'.trans (v.queueSame_humBegin l none seq)
  have moved'' := moved'.trans (LaneMove.humBegin v none seq)
  generalize v.humBegin l none seq = w at hum queues'' moved''
  obtain ⟨b, counted⟩ : ∃ b, ((w.modLane l fun ln => ln.appendParcel seq ws resumed).countEntered l ws.length).lane l
      = { (w.lane l).appendParcel seq ws resumed with counters := b } := by
    unfold State.countEntered
    rw [State.lane_count_same, State.lane_count_same, State.lane_modLane_same]
    exact ⟨_, rfl⟩
  rw [hum, lane] at counted
  have still : (s.lane l).state.isFlushing = false := by rw [running]; rfl
  refine State.LineOk.depart (h.of_move ((moved''.trans (LaneMove.modLane _ fun ln => ln.appendParcel seq ws resumed)).trans
    (State.countEntered_move _ l _)) queues'' ?_ ?_ ?_ ?_ fun law => ?_) ?_ ?_ ?_
  · rw [counted]
    refine (noted.line h.line).append rfl rfl rfl rfl rfl rfl rfl some rfl ?_
    rw [Lane.occupancy, held, allocation]
    exact room
  · rw [counted]
    exact sound'.mono (Nat.le_add_right _ _)
  · rw [counted]
    exact Lane.hasPart_of_assembly still assembly
  · rw [counted, ← assembly]
    exact id
  · rw [counted]
    obtain ⟨marks, counts, parts⟩ := noted.parcels law
    exact ⟨marks, List.forall_mem_append.2 ⟨counts, List.forall_mem_singleton.2
      ⟨List.length_pos_of_ne_nil some, limit⟩⟩, parts⟩
  · have head : (((w.modLane l fun ln => ln.appendParcel seq ws resumed).countEntered l ws.length).lane l).headPosition
        = (u.lane l).headPosition := by
      rw [counted]
      exact Lane.headPosition_append (x := u.lane l) rfl rfl rfl
    rw [head, counted]
    exact stay'
  · rw [counted]
    change (u.lane l).state.atRest = false
    rw [state, running]
    rfl
  · rw [counted]
    intro flushing
    change (u.lane l).state.isFlushing = true at flushing
    rw [state, still] at flushing
    contradiction

end

end Sys2Proof.Machine
end

section
/-! Drains, expiries and deadlines keep the laws of the lane and of the wait list (R9, R23, R26, R86, R88). -/

namespace Sys2Proof.Machine

variable {q : Prop} {l : LaneId} {s : State}

/-! ### Small changes between two events -/

/-- What is only noted of a lane leaves all its laws. -/
theorem State.WorkOk.noted (h : s.WorkOk q l) {t : State} (moved : LaneMove l s t) (same : s.QueueSame t)
    (noted : (s.lane l).Noted (t.lane l)) : t.WorkOk q l := by
  obtain ⟨ms, c, e, d, a, lane, offsets, runs, count, start⟩ := id noted
  have length := congrArg List.length offsets
  rw [List.length_map, List.length_map] at length
  have none : ms = [] ↔ (s.lane l).marks = [] := by
    rw [← List.length_eq_zero_iff, ← List.length_eq_zero_iff, length]
  have trailing : (t.lane l).trailing = true ↔ (s.lane l).trailing = true := by
    rw [Lane.trailing_iff, Lane.trailing_iff, lane]
    exact and_congr_right fun _ => and_congr_right fun _ => and_congr_right fun _ => not_congr none
  have part : (s.lane l).hasPart = true → (t.lane l).hasPart = true := by
    rw [Lane.hasPart_iff, Lane.hasPart_iff, trailing, lane]
    exact id
  refine ⟨h.toLineOk.of_move moved same (noted.line h.line) ?_ part ?_ noted.parcels, ?_, noted.stay h.stay, ?_, fun trails => ?_⟩
  · rw [lane]
    exact h.runs.of_same runs (.inl ⟨count, start⟩)
  · rw [lane]
    exact id
  · rw [lane]
    intro rest
    obtain ⟨held, runs', assembly, marks⟩ := h.rest rest
    exact ⟨held, runs.trans runs', assembly, none.2 marks⟩
  · rw [lane]
    intro flushing r hr
    rw [runs] at hr
    exact h.closed flushing r hr
  · rw [same.1]
    exact h.trailing (trailing.1 trails)

/-- A free place means that no lane waits (R103). -/
theorem State.WaitsBut.none_waits (h : s.WaitsBut l) (room : s.sampleRoom = true) : s.waitList = [] := by
  by_contra some
  have full := h.full some
  have free := s.sampleRoom_iff.1 room
  omega

/-- A parcel that is copied into a free place of the sample queue (R17, R20). -/
theorem State.WorkOk.pushSample (h : s.WorkOk q l) (room : s.sampleRoom = true) {p : OutParcel}
    (inRange : p.inRange = true) : (s.pushSample p).WorkOk q l := by
  have none := h.waits.none_waits room
  have free := s.sampleRoom_iff.1 room
  refine ⟨⟨h.line, h.runs, ⟨h.waits.nodup, ?_, fun some => absurd none some, h.waits.others, h.waits.own, h.waits.complete⟩,
    fun hq => ⟨(h.ranges hq).1, ?_⟩⟩, h.rest, h.stay, h.closed, h.trailing⟩
  · exact (List.length_append (as := s.delivery.samples) (bs := [p])).trans_le free
  · exact List.forall_mem_append.2 ⟨(h.ranges hq).2, List.forall_mem_singleton.2 inRange⟩

/-! ### Changes of state -/

/-- A lane that takes a new state while it works; one that flushes goes on flushing (R25, R38). -/
theorem State.LineOk.changeState (h : s.LineOk q l) {st : LaneState} (was : (s.lane l).state ≠ .off) (isnt : st ≠ .off)
    (flush : (s.lane l).state.isFlushing = true → st.isFlushing = true) : (s.changeState l st).LineOk q l := by
  obtain ⟨a, lane⟩ := s.lane_changeState l st l
  rw [if_pos rfl] at lane
  refine h.of_move (.changeState s st was isnt) (s.queueSame_changeState l st) ?_ ?_ (fun part => ?_) ?_ ?_
  · rw [lane]
    exact ⟨h.line.room, h.line.marks, h.line.held, h.line.assembly⟩
  · rw [lane]
    exact h.runs
  · rw [lane]
    rcases (Lane.hasPart_iff _).1 part with complete | trails
    · exact (Lane.hasPart_iff _).2 (.inl complete)
    · obtain ⟨flushing, rest⟩ := (Lane.trailing_iff _).1 trails
      exact (Lane.hasPart_iff _).2 (.inr ((Lane.trailing_iff _).2 ⟨flush flushing, rest⟩))
  · rw [lane]
    exact id
  · rw [lane]
    exact id

/-- A drain that begins (R10, R88). -/
theorem State.WorkOk.beginDrain (h : s.WorkOk q l) (running : (s.lane l).state.isRunning = true) (t : DrainTarget) :
    (s.beginDrain l t).WorkOk q l := by
  have was : (s.lane l).state ≠ .off := fun off => by
    rw [off] at running
    contradiction
  obtain ⟨a, lane⟩ := s.lane_changeState l (.draining t) l
  rw [if_pos rfl] at lane
  have drained : (s.changeState l (.draining t)).LineOk q l := h.toLineOk.changeState was (by simp) fun _ => rfl
  have queues := s.queueSame_changeState l (.draining t)
  have state : ((s.changeState l (.draining t)).lane l).state = .draining t := by rw [lane]; rfl
  unfold State.beginDrain
  dsimp only
  split
  · rename_i flushing
    refine drained.settle ?_ ?_ ?_ fun trails => ?_
    · rw [lane]
      exact h.stay
    · rw [RestLaw, state]
      intro rest
      contradiction
    · rw [lane]
      exact fun _ => h.closed flushing
    · rw [queues.1]
      obtain ⟨_, rest⟩ := (Lane.trailing_iff _).1 trails
      rw [lane] at rest
      exact h.trailing ((Lane.trailing_iff _).2 ⟨flushing, rest⟩)
  · exact drained.flush (by rw [state]; rfl)

/-- The expiry of a starvation timer (R26, R88). -/
theorem State.WorkOk.expireLane (h : s.WorkOk q l) (running : (s.lane l).state = .running false) :
    (s.expireLane l).WorkOk q l := by
  obtain ⟨a, lane⟩ := s.lane_changeState l (.running true) l
  rw [if_pos rfl] at lane
  refine State.LineOk.flush (h.toLineOk.changeState (by rw [running]; simp) (by simp) fun _ => rfl) ?_
  rw [lane]
  rfl

/-! ### The deadline -/

/-- Numbers tell the records of a lane apart (R51). -/
theorem Detector.Sound.number_injective {next : Nat} {d : Detector} (h : d.Sound next) {a b : RunRecord} (ha : a ∈ d.runs)
    (hb : b ∈ d.runs) (same : a.number = b.number) : a = b := List.inj_on_of_nodup_map h.once ha hb same

/-- A run given up at its deadline, or a repair undertaken or done, changes the state of one run that does not grow. -/
theorem State.LineOk.modRun (h : s.LineOk q l) (stay : (s.lane l).det.AllStay (s.lane l).headPosition) {r : RunRecord}
    (listed : r ∈ (s.lane l).det.runs) (held : (s.lane l).headPosition ≤ r.last) {f : RunRecord → RunRecord}
    (number : ∀ r, (f r).number = r.number) (place : ∀ r, (f r).first = r.first ∧ (f r).last = r.last)
    (growing : ∀ r, r.growing = false → (f r).growing = false) (anchored : (f r).anchored = true)
    (opened : ∀ r, (f r).state = .opened → r.state = .opened) :
    (s.modDet l fun d => d.modRun r.number f).LineOk q l
      ∧ ((s.modDet l fun d => d.modRun r.number f).lane l).det.AllStay
          ((s.modDet l fun d => d.modRun r.number f).lane l).headPosition := by
  have lane : (s.modDet l fun d => d.modRun r.number f).lane l = { s.lane l with det := (s.lane l).det.modRun r.number f } :=
    State.lane_modLane_same s l _
  have only : ∀ a ∈ (s.lane l).det.runs, a.number = r.number → a = r := fun a ha same =>
    h.runs.number_injective ha listed same
  refine ⟨⟨?_, ?_, h.waits.of_same (fun m hm => ⟨_, s.lane_modLane_ne _ hm⟩) ⟨rfl, rfl⟩ (fun listed => ?_) fun waits => ?_,
    fun hq => (h.ranges hq).of_same ⟨rfl, rfl⟩ fun law => by rw [lane]; exact law⟩, ?_⟩
  · rw [lane]
    exact ⟨h.line.room, h.line.marks, h.line.held, h.line.assembly⟩
  · rw [lane]
    refine h.runs.modRun r.number number place growing (fun a ha same => ?_) opened
    rw [only a ha same]
    exact anchored
  · rw [lane]
    exact h.waits.own listed
  · rw [lane] at waits
    exact h.waits.complete waits
  · rw [lane]
    unfold Detector.AllStay Detector.modRun
    simp only [List.forall_mem_map]
    intro a ha
    split
    · rename_i same
      rw [only a ha same]
      refine .inr ?_
      rw [(place r).2]
      exact held
    · exact stay a ha

/-- In a lane that does not flush, departure leaves the state (R78). -/
theorem State.state_depart (still : (s.lane l).state.isFlushing = false) : ((s.depart l).lane l).state = (s.lane l).state := by
  obtain ⟨t, work, departs⟩ := s.depart_laneWork l
  rw [departs, State.settle_none fun done => by
    have flushing := done.2
    rw [work.frame.state, still] at flushing
    contradiction]
  exact work.frame.state

/-- A deadline that is taken on the run that holds the head sample back (R86). -/
theorem State.WorkOk.takeDeadline (h : s.WorkOk q l) (running : (s.lane l).state = .running false) {r : RunRecord} {c : Nat}
    (due : (s.lane l).deadlineRun? c = some r) : (s.takeDeadline l r.number).WorkOk q l := by
  unfold Lane.deadlineRun? at due
  split at due
  · unfold Lane.blockingRun? at due
    have listed := List.mem_of_find?_eq_some due
    have blocks := List.find?_some due
    simp only [RunRecord.covers, Bool.and_eq_true, decide_eq_true_eq] at blocks
    unfold State.takeDeadline
    have dropped : ((s.dropRepairEntry l r.number).abandonRepair l r.number).lane l = s.lane l := by
      unfold State.abandonRepair
      split
      · rw [State.lane_wake]
        rfl
      · rfl
    have moved := (s.dropRepairEntry_move l r.number).trans (State.abandonRepair_move _ l r.number)
    have queues : s.QueueSame ((s.dropRepairEntry l r.number).abandonRepair l r.number) := by
      unfold State.abandonRepair
      split
      · refine State.QueueSame.wake ?_ l
        exact ⟨rfl, rfl⟩
      · exact .refl s
    generalize (s.dropRepairEntry l r.number).abandonRepair l r.number = u at dropped moved queues
    have ok : u.LineOk q l := h.toLineOk.of_move moved queues (dropped ▸ h.line) (dropped ▸ h.runs) (dropped ▸ id)
      (dropped ▸ id) (dropped ▸ id)
    obtain ⟨ok', stay'⟩ := ok.modRun (dropped ▸ h.stay) (dropped ▸ listed) (f := RunRecord.giveUp)
      (dropped ▸ blocks.1.2) (fun _ => rfl) (fun _ => ⟨rfl, rfl⟩) (fun _ _ => rfl) rfl (fun _ opened => by contradiction)
    have state : ((u.modDet l fun d => d.modRun r.number RunRecord.giveUp).lane l).state = .running false := by
      unfold State.modDet
      rw [State.lane_modLane_same, dropped]
      exact running
    refine ok'.depart stay' ?_ fun flushing => ?_
    · rw [state]
      rfl
    · rw [state] at flushing
      contradiction
  · contradiction

theorem State.state_takeDeadline (running : (s.lane l).state = .running false) (n : Nat) :
    ((s.takeDeadline l n).lane l).state = .running false := by
  have dropped : (((s.dropRepairEntry l n).abandonRepair l n).modDet l fun d => d.modRun n RunRecord.giveUp).lane l
      = { s.lane l with det := (s.lane l).det.modRun n RunRecord.giveUp } := by
    unfold State.modDet
    rw [State.lane_modLane_same]
    unfold State.abandonRepair
    split
    · rw [State.lane_wake]
      rfl
    · rfl
  unfold State.takeDeadline
  rw [State.state_depart (by rw [dropped, running]; rfl), dropped]
  exact running

theorem State.WorkOk.deadlines : ∀ (n : Nat) (c : Nat) {s : State}, s.WorkOk q l → (s.lane l).state = .running false →
    (State.deadlines n l c s).WorkOk q l ∧ ((State.deadlines n l c s).lane l).state = .running false
  | 0, _, _, h, running => ⟨h, running⟩
  | n + 1, c, s, h, running => by
    unfold State.deadlines
    split
    · rename_i r due
      exact State.WorkOk.deadlines n c (h.takeDeadline running due) (State.state_takeDeadline running r.number)
    · exact ⟨h, running⟩

end Sys2Proof.Machine
end

section
/-! The answer of a lane to an offer keeps the laws of the lane and of the wait list (R14 to R24). -/

namespace Sys2Proof.Machine

variable {q : Prop} {l : LaneId} {s : State}

/-! ### Parcels that enter no hold line -/

/-- A lane without places holds nothing (R3, R73). -/
theorem Lane.HeldOk.none_held {x : Lane} (h : x.HeldOk) (none : x.allocation = 0) : x.held = [] := by
  cases held : x.held with
  | nil => rfl
  | cons p ps =>
    have room := h.room
    have some := List.length_pos_of_ne_nil (heldFrom_parcel h.held p (by simp [held])).1
    rw [none, Lane.occupancy, held, List.map_cons, List.sum_cons] at room
    omega

/-- The positions of a lane that holds nothing advance by a parcel that is counted and followed (R17, R19). -/
theorem State.WorkOk.advanced (h : s.WorkOk q l) (running : (s.lane l).state = .running false)
    (none : (s.lane l).held = []) (seq : SeqNum) (n : Nat) :
    (((s.continuity l seq).modLane l fun ln => ln.advance n).countEntered l n).WorkOk q l := by
  have noted := (Lane.Noted.refl (s.lane l)).continuity seq
  have followed := h.noted (s.continuity_move l seq) (s.queueSame_continuity l seq) noted
  have moved := s.continuity_move l seq
  have queues := s.queueSame_continuity l seq
  generalize s.continuity l seq = u at noted followed moved queues
  obtain ⟨state, held, next, assembly, allocation, offsets, _⟩ := noted.place
  rw [none] at held
  have advanced : (u.modLane l fun ln => ln.advance n).lane l = (u.lane l).advance n := State.lane_modLane_same u l _
  have head : (u.lane l).headPosition = (u.lane l).nextPosition := by
    unfold Lane.headPosition
    rw [held]
  have still : (u.lane l).state.isFlushing = false := by rw [state, running]; rfl
  refine State.WorkOk.noted (s := u.modLane l fun ln => ln.advance n)
    ⟨followed.toLineOk.of_move (LaneMove.modLane u fun ln => ln.advance n) ⟨rfl, rfl⟩ ?_ ?_ ?_ ?_ ?_, ?_, ?_, ?_, ?_⟩
    (State.countEntered_move _ l n) (.refl _) (((Lane.Noted.refl _).count .parcelsEntered 1).count .samplesEntered n)
  · rw [advanced]
    refine ⟨followed.line.room, followed.line.marks, ?_, followed.line.assembly⟩
    change heldFrom _ (u.lane l).held = true
    rw [held]
    rfl
  · rw [advanced]
    exact followed.runs.mono (Nat.le_add_right _ _)
  · rw [advanced]
    exact Lane.hasPart_of_assembly still rfl
  · rw [advanced]
    exact id
  · rw [advanced]
    exact id
  · rw [advanced, RestLaw]
    intro rest
    change (u.lane l).state.atRest = true at rest
    rw [state, running] at rest
    contradiction
  · rw [advanced]
    intro r hr
    rcases followed.stay r hr with growing | behind
    · exact .inl growing
    · have := (followed.runs.bounds r hr).2
      omega
  · rw [advanced]
    intro flushing
    exact absurd (still.symm.trans flushing) (by decide)
  · intro trails
    rw [advanced] at trails
    exact absurd (still.symm.trans ((Lane.trailing_iff _).1 trails).1) (by decide)

/-- An ECHO lane copies the parcel into a free place (R17). -/
theorem State.WorkOk.takeEcho (h : s.WorkOk q l) (running : (s.lane l).state = .running false)
    (none : (s.lane l).held = []) (room : s.sampleRoom = true) (seq : SeqNum) {ws : List Sample}
    (length : 1 ≤ ws.length ∧ ws.length ≤ 512) (resumed : Bool) : (s.takeEcho l seq ws resumed).WorkOk q l := by
  refine (h.advanced running none seq ws.length).pushSample ?_
    (Bool.and_eq_true_iff.2 ⟨decide_eq_true length.1, decide_eq_true length.2⟩)
  rw [State.sampleRoom_iff] at room ⊢
  exact (s.queueSame_continuity l seq).2 ▸ room

/-- A CHECK lane gives the parcel to the checker (R17, R128). -/
theorem State.WorkOk.takeCheck (h : s.WorkOk q l) (running : (s.lane l).state = .running false)
    (none : (s.lane l).held = []) (seq : SeqNum) (ws : List Sample) :
    (s.takeCheck l seq ws).WorkOk q l := by
  have advanced := h.advanced running none seq ws.length
  have only : CheckerOnly (((s.continuity l seq).modLane l fun ln => ln.advance ws.length).countEntered l ws.length)
      (s.takeCheck l seq ws) := by
    unfold State.takeCheck
    dsimp only
    refine CheckerOnly.trans ?_ (State.checkerParcel_only _ l seq ws)
    split
    · exact State.checkerLoss_only _ l seq 2
    · exact .refl _
  have same := only.lane l
  refine ⟨⟨same ▸ advanced.line, same ▸ advanced.runs, ?_, fun hq =>
    (advanced.ranges hq).of_same only.queueSame (same ▸ id)⟩, same ▸ advanced.rest, same ▸ advanced.stay,
    same ▸ advanced.closed, ?_⟩
  · refine advanced.waits.of_same (fun m _ => ⟨_, only.lane m⟩) only.queueSame ?_ ?_
    · rw [same]
      exact advanced.waits.own
    · rw [same]
      exact advanced.waits.complete
  · rw [same, only.waitList]
    exact advanced.trailing

/-! ### A parcel taken -/

/-- A lane that is not OFF has the places that its record gives (R3). -/
def Lane.Allotted (x : Lane) : Prop := x.state ≠ .off → x.allocation = x.config.allocation

theorem Lane.Allotted.none_held {x : Lane} (h : x.Allotted) (running : x.state = .running false) (ok : x.HeldOk)
    (route : x.config.route.usesHoldLine = false) : x.held = [] := by
  refine ok.none_held ((h (by rw [running]; simp)).trans ?_)
  unfold LaneConfig.allocation
  rw [route]
  rfl

/-- A RUNNING lane takes a parcel into its hold line (R16). -/
theorem State.WorkOk.enterHeld (h : s.WorkOk q l) (running : (s.lane l).state = .running false) (seq : SeqNum)
    {ws : List Sample} (length : 1 ≤ ws.length ∧ ws.length ≤ 512) (resumed : Bool)
    (holds : (s.lane l).config.route.usesHoldLine = true) (room : (s.lane l).occupancy + ws.length ≤ (s.lane l).allocation) :
    (s.takeParcel l seq ws resumed).WorkOk q l := by
  have some : ws ≠ [] := List.ne_nil_of_length_pos length.1
  unfold State.takeParcel
  cases route : (s.lane l).config.route with
  | restore => exact h.toLineOk.enterRestore h.stay running some length.2 room seq resumed
  | pass => exact h.toLineOk.enterPlain running some length.2 room seq resumed
  | mute => exact h.toLineOk.enterPlain running some length.2 room seq resumed
  | generate => exact h.toLineOk.enterPlain running some length.2 room seq resumed
  | echo => simp [route, Route.usesHoldLine] at holds
  | check => simp [route, Route.usesHoldLine] at holds

/-- A RUNNING lane takes a parcel on a route without a hold line, with a place where its route copies (R17). -/
theorem State.WorkOk.takePassing (h : s.WorkOk q l) (allotted : (s.lane l).Allotted)
    (running : (s.lane l).state = .running false) (seq : SeqNum) {ws : List Sample}
    (length : 1 ≤ ws.length ∧ ws.length ≤ 512) (resumed : Bool) (passes : (s.lane l).config.route.usesHoldLine = false)
    (place : (s.lane l).config.route = .echo → s.sampleRoom = true) : (s.takeParcel l seq ws resumed).WorkOk q l := by
  have none := allotted.none_held running h.line passes
  unfold State.takeParcel
  cases route : (s.lane l).config.route with
  | echo => exact h.takeEcho running none (place route) seq length resumed
  | check => exact h.takeCheck running none seq ws
  | _ => simp [route, Route.usesHoldLine] at passes

/-- The answer of a RUNNING lane to a parcel that has passed its tests (R15, R73, R86). -/
theorem State.WorkOk.takeOrWait (h : s.WorkOk q l) (allotted : (s.lane l).Allotted)
    (running : (s.lane l).state = .running false) (seq : SeqNum) {ws : List Sample}
    (length : 1 ≤ ws.length ∧ ws.length ≤ 512) : (s.takeOrWait l seq ws).2.WorkOk q l := by
  have line (holds : (s.lane l).config.route.usesHoldLine = true) :
      (let s1 := State.deadlines (s.lane l).det.runs.length l ws.length s
        if (s1.lane l).room ws.length then (Answer.take, s1.takeParcel l seq ws false) else (.wait, s1)).2.WorkOk q l := by
    obtain ⟨ok, running'⟩ := State.WorkOk.deadlines (s.lane l).det.runs.length ws.length h running
    have config := (State.deadlines_work (s.lane l).det.runs.length l ws.length s).frame.config l
    dsimp only
    split
    · rename_i room
      have room := of_decide_eq_true room
      exact ok.enterHeld running' seq length false (by rw [config]; exact holds) room
    · exact ok
  unfold State.takeOrWait
  cases route : (s.lane l).config.route with
  | check => exact h.takePassing allotted running seq length false (by rw [route]; rfl) (by simp [route])
  | echo =>
    dsimp only
    split
    · rename_i free
      exact h.takePassing allotted running seq length false (by rw [route]; rfl) fun _ => free
    · exact h
  | restore => exact line (by rw [route]; rfl)
  | pass => exact line (by rw [route]; rfl)
  | mute => exact line (by rw [route]; rfl)
  | generate => exact line (by rw [route]; rfl)

/-! ### A lane that starts -/

/-- A lane at rest that enters RUNNING holds nothing and keeps its laws (R5, R8). -/
theorem State.WorkOk.enterRunning (h : s.WorkOk q l) (rest : (s.lane l).state.atRest = true) (was : (s.lane l).state ≠ .off) :
    (s.enterRunning l).WorkOk q l ∧ (s.enterRunning l).lane l = (s.lane l).started := by
  obtain ⟨held, runs, assembly, marks⟩ := h.rest rest
  have lane : (s.enterRunning l).lane l = (s.lane l).started := by rw [State.lane_enterRunning, if_pos rfl]
  have held' : (s.lane l).started.held = [] := held
  have none : ∀ {P : RunRecord → Prop}, ∀ r ∈ (s.lane l).started.det.runs, P r := fun r hr => by
    change r ∈ (s.lane l).det.runs at hr
    rw [runs] at hr
    contradiction
  refine ⟨⟨h.toLineOk.of_move (.enterRunning s was) (s.queueSame_enterRunning l) ?_ ?_ (fun part => ?_) ?_ ?_, ?_, ?_, ?_, ?_⟩,
    lane⟩
  · rw [lane]
    refine ⟨h.line.room, h.line.marks, ?_, (Lane.assemblyLawful_empty assembly).2 fun p ps some => ?_⟩
    · rw [held']
      rfl
    · rw [held] at some
      contradiction
  · rw [lane]
    exact Detector.Sound.nil (d := (s.lane l).started.det) runs _
  · rw [lane]
    exact Lane.hasPart_of_assembly (x := s.lane l) (Bool.eq_false_of_not_eq_true (LaneState.not_flushing_of_atRest rest)) rfl part
  · rw [lane]
    exact id
  · rw [lane]
    exact id
  · rw [lane, RestLaw]
    intro c
    contradiction
  · rw [lane]
    exact none
  · rw [lane]
    exact fun _ => none
  · rw [lane]
    intro trails
    exact absurd ((Lane.trailing_iff _).1 trails).1 Bool.false_ne_true

/-- An ARMED or STALLED lane answers a SAMPLES parcel (R15). -/
theorem State.WorkOk.startWith (h : s.WorkOk q l) (allotted : (s.lane l).Allotted) (rest : (s.lane l).state.atRest = true)
    (was : (s.lane l).state ≠ .off) (seq : SeqNum) {ws : List Sample} (length : 1 ≤ ws.length ∧ ws.length ≤ 512)
    (resumed : Bool) : (s.startWith l seq ws resumed).2.WorkOk q l := by
  obtain ⟨ok, lane⟩ := h.enterRunning rest was
  have queues := s.queueSame_enterRunning l
  unfold State.startWith
  dsimp only
  split
  · exact h.noted ((LaneMove.count s .oversize 1).trans (.issue _ _))
      (State.QueueSame.issue (t := s.count l .oversize 1) (.refl s) _) ((Lane.Noted.refl _).count .oversize 1)
  · rename_i fits
    split
    · exact h
    · rename_i waits
      have running : ((s.enterRunning l).lane l).state = .running false := by rw [lane]; rfl
      have config : ((s.enterRunning l).lane l).config = (s.lane l).config := by rw [lane]; rfl
      cases holds : (s.lane l).config.route.usesHoldLine with
      | true =>
        refine ok.enterHeld running seq length resumed (by rw [config]; exact holds) ?_
        obtain ⟨held, _⟩ := h.rest rest
        have given := allotted was
        unfold LaneConfig.allocation at given
        rw [holds, if_pos rfl] at given
        rw [lane]
        change (s.lane l).occupancy + ws.length ≤ (s.lane l).allocation
        rw [given, Lane.occupancy, held, List.map_nil, List.sum_nil]
        omega
      | false =>
        refine ok.takePassing ?_ running seq length resumed (by rw [config]; exact holds) fun echo => ?_
        · rw [lane]
          exact fun _ => allotted was
        · rw [config] at echo
          have free : s.sampleRoom = true := by
            cases room : s.sampleRoom with
            | true => rfl
            | false => exact absurd ⟨echo, room⟩ waits
          rw [State.sampleRoom_iff] at free ⊢
          rw [queues.2]
          exact free

/-- The answer to a SAMPLES parcel (R15). -/
theorem State.WorkOk.answerSamples (h : s.WorkOk q l) (allotted : (s.lane l).Allotted) (seq : SeqNum) {ws : List Sample}
    (length : 1 ≤ ws.length ∧ ws.length ≤ 512) : (s.answerSamples l seq ws).2.WorkOk q l := by
  have counted : ∀ c, (s.count l c 1).WorkOk q l := fun c =>
    h.noted (.count s c 1) (.refl s) ((Lane.Noted.refl _).count c 1)
  have noticed : ∀ c n, ((s.count l c 1).issue n).WorkOk q l := fun c n =>
    h.noted ((LaneMove.count s c 1).trans (.issue _ _)) (State.QueueSame.issue (t := s.count l c 1) (.refl s) _)
      ((Lane.Noted.refl _).count c 1)
  unfold State.answerSamples
  split
  · exact counted .unclaimed
  · rename_i armed
    split
    · exact counted .armedDiscards
    · exact h.startWith allotted (by rw [armed]; rfl) (by rw [armed]; simp) seq length false
  · rename_i running
    unfold State.answerRunning
    dsimp only
    split
    · exact noticed .oversize _
    · split
      · exact noticed .order _
      · exact h.takeOrWait allotted running seq length
  · exact h
  · rename_i stalled
    exact h.startWith allotted (by rw [stalled]; rfl) (by rw [stalled]; simp) seq length true
  · exact counted .unclaimed
  · exact h

/-! ### Marks -/

/-- A mark joins the mark list of a RUNNING lane (R21, R61). -/
theorem State.WorkOk.placeMark (h : s.WorkOk q l) (running : (s.lane l).state = .running false) {m : MarkEntry}
    (few : (s.lane l).marks.length < 8) (offset : m.offset ≤ 511) :
    (s.placeMark l m).WorkOk q l ∧ ((s.placeMark l m).lane l).state = .running false := by
  have still : (s.lane l).state.isFlushing = false := by rw [running]; rfl
  have joined : ∀ n : MarkEntry, n.offset ≤ 511 →
      (s.modLane l fun ln => { ln with marks := ln.marks ++ [n] }).WorkOk q l
        ∧ ((s.modLane l fun ln => { ln with marks := ln.marks ++ [n] }).lane l).state = .running false := fun n low => by
    have lane : (s.modLane l fun ln => { ln with marks := ln.marks ++ [n] }).lane l
        = { s.lane l with marks := (s.lane l).marks ++ [n] } := State.lane_modLane_same s l _
    refine ⟨⟨h.toLineOk.of_move (.modLane s fun ln => { ln with marks := ln.marks ++ [n] }) (.refl s) ?_ ?_ ?_ ?_ ?_,
      ?_, ?_, ?_, ?_⟩, by rw [lane]; exact running⟩
    · rw [lane]
      refine ⟨h.line.room, ?_, h.line.held, h.line.assembly⟩
      rw [List.length_append]
      exact few
    · rw [lane]
      exact h.runs
    · rw [lane]
      exact Lane.hasPart_of_assembly still rfl
    · rw [lane]
      exact id
    · rw [lane]
      exact fun ⟨marks, rest⟩ => ⟨List.forall_mem_append.2 ⟨marks, List.forall_mem_singleton.2 low⟩, rest⟩
    · rw [lane, RestLaw]
      intro rest
      change (s.lane l).state.atRest = true at rest
      rw [running] at rest
      contradiction
    · rw [lane]
      exact h.stay
    · rw [lane]
      exact h.closed
    · rw [lane]
      exact fun trails => absurd (still.symm.trans ((Lane.trailing_iff _).1 trails).1) (by decide)
  have counts : ∀ u : State, u.WorkOk q l ∧ (u.lane l).state = .running false → ∀ c,
      (u.count l c 1).WorkOk q l ∧ ((u.count l c 1).lane l).state = .running false := fun u ok c =>
    ⟨ok.1.noted (.count u c 1) (.refl u) ((Lane.Noted.refl _).count c 1), by rw [State.lane_count_same]; exact ok.2⟩
  unfold State.placeMark
  dsimp only
  split
  · have ok := counts _ (counts _ (joined { m with spanPending := false } offset) .marksAccepted) .lateSplices
    exact ⟨ok.1.noted (.issue _ _) (State.QueueSame.issue (.refl _) _) (.refl _), ok.2⟩
  · exact counts _ (joined m offset) .marksAccepted

theorem State.WorkOk.offerMark (h : s.WorkOk q l) (running : (s.lane l).state = .running false) {m : MarkEntry}
    (offset : m.offset ≤ 511) :
    (s.offerMark l m).2.WorkOk q l ∧ ((s.offerMark l m).2.lane l).state = .running false := by
  unfold State.offerMark
  split
  · rename_i few
    exact h.placeMark running few offset
  · refine ⟨h.noted ((LaneMove.count s .markListFull 1).trans (.issue _ _))
      (State.QueueSame.issue (t := s.count l .markListFull 1) (.refl s) _) ((Lane.Noted.refl _).count .markListFull 1), ?_⟩
    change ((s.count l .markListFull 1).lane l).state = .running false
    rw [State.lane_count_same]
    exact running

/-- A mark is forwarded into a free place (R20). -/
theorem State.WorkOk.forwardMark (h : s.WorkOk q l) (room : s.sampleRoom = true) {m : MarkEntry} (offset : m.offset ≤ 511) :
    (s.forwardMark l m).WorkOk q l :=
  (h.pushSample (p := m.parcel l) room (decide_eq_true offset)).noted (.count _ _ _) (.refl _) ((Lane.Noted.refl _).count .marksAccepted 1)

/-- A mark's kind acts on a RUNNING lane (R23, R42). -/
theorem State.WorkOk.reelEvent (h : s.WorkOk q l) (running : (s.lane l).state = .running false) (k : MarkKind) :
    (s.reelEvent l k).WorkOk q l := by
  have resynced : HumOnly s (s.reelStartResync l) := by
    unfold State.reelStartResync
    dsimp only
    split
    · split
      · exact .modHum s l _
      · exact .refl s
    · exact .refl s
  cases k with
  | reelStart => exact h.noted (s.reelStartResync_move l) (s.queueSame_reelStartResync l) ((Lane.Noted.refl _).humOnly resynced)
  | reelEnd => exact h.beginDrain (by rw [running]; rfl) .armed
  | splice | speed | cue => exact h

theorem State.WorkOk.markRunning (h : s.WorkOk q l) (running : (s.lane l).state = .running false) {m : MarkEntry}
    (offset : m.offset ≤ 511) : (s.markRunning l m).2.WorkOk q l := by
  unfold State.markRunning
  split
  · obtain ⟨ok, running'⟩ := h.offerMark running offset
    exact ok.reelEvent running' m.kind
  · split
    · rename_i room
      exact (h.forwardMark room offset).reelEvent ((s.state_forwardMark l m).trans running) m.kind
    · exact h

/-- A REEL_END mark makes a STALLED lane ARMED (R23). -/
theorem State.WorkOk.rearm (h : s.WorkOk q l) (stalled : (s.lane l).state = .stalled) :
    ((s.changeState l .armed).issue (laneNotice .laneArmed l 0 0)).WorkOk q l := by
  obtain ⟨held, runs, assembly, marks⟩ := h.rest (by rw [stalled]; rfl)
  obtain ⟨a, lane⟩ := s.lane_changeState l .armed l
  rw [if_pos rfl] at lane
  refine State.WorkOk.noted ⟨h.toLineOk.changeState (by rw [stalled]; simp) (by simp) ?_, ?_, ?_, ?_, ?_⟩
    (.issue _ _) (State.QueueSame.issue (.refl _) _) (.refl _)
  · rw [stalled]
    exact id
  · rw [lane]
    exact fun _ => ⟨held, runs, assembly, marks⟩
  · rw [lane]
    exact h.stay
  · rw [lane]
    intro c
    contradiction
  · rw [lane]
    exact fun trails => absurd ((Lane.trailing_iff _).1 trails).1 Bool.false_ne_true

/-- The answer to a MARK parcel (R20). -/
theorem State.WorkOk.answerMark (h : s.WorkOk q l) {m : MarkEntry} (offset : m.offset ≤ 511) :
    (s.answerMark l m).2.WorkOk q l := by
  have counted : ∀ c, (s.count l c 1).WorkOk q l := fun c =>
    h.noted (.count s c 1) (.refl s) ((Lane.Noted.refl _).count c 1)
  unfold State.answerMark
  split
  · exact counted .unclaimed
  · rename_i armed
    unfold State.markArmed
    split
    · split
      · obtain ⟨ok, lane⟩ := h.enterRunning (by rw [armed]; rfl) (by rw [armed]; simp)
        exact ok.markRunning (by rw [lane]; rfl) offset
      · exact h
    · exact counted .armedDiscards
  · rename_i running
    exact h.markRunning running offset
  · exact h
  · rename_i stalled
    unfold State.markStalled
    split
    · rename_i room
      have forwarded := h.forwardMark room offset
      have state := (s.state_forwardMark l m).trans stalled
      dsimp only
      split
      · exact forwarded
      · exact forwarded.rearm state
      · exact forwarded.noted (State.spliceLate_move _ l m.seq) (State.queueSame_spliceLate _ l m.seq)
          ((Lane.Noted.refl _).count .lateSplices 1)
      · exact forwarded
      · exact forwarded
    · exact h
  · exact counted .unclaimed
  · exact h

/-- The answer to an offered parcel (R14). -/
theorem State.WorkOk.answer {p : InParcel} (h : s.WorkOk q p.lane) (allotted : (s.lane p.lane).Allotted)
    (inRange : p.inRange = true) : (s.answer p).2.WorkOk q p.lane := by
  cases p with
  | samples l seq ws =>
    obtain ⟨low, high⟩ := Bool.and_eq_true_iff.1 inRange
    exact State.WorkOk.answerSamples h allotted seq ⟨of_decide_eq_true low, of_decide_eq_true high⟩
  | mark l k seq o v =>
    exact State.WorkOk.answerMark (m := markEntry k seq o v (s.lane l).config.route) h (of_decide_eq_true inRange)

end Sys2Proof.Machine
end

section
/-! The laws of all lanes, of the wait list and of the parcels on their way, held together between two steps, and what the
commands make of them (O55 to O57, O60). -/

namespace Sys2Proof.Machine

variable {q : Prop}

/-! ### The laws of all lanes -/

/-- The laws of one lane between two steps (R5, R21, R51, R57, R71 to R73, R90, R97). -/
structure Lane.Sane (x : Lane) : Prop where
  rest : RestLaw x
  line : x.HeldOk
  runs : x.det.Sound x.nextPosition
  stay : x.det.AllStay x.headPosition
  closed : x.state.isFlushing = true → ∀ r ∈ x.det.runs, r.growing = false

theorem Lane.sane_iff (x : Lane) : x.Sane ↔ LaneLaws x ∧ x.runNumbers.Nodup := by
  rw [laneLaws_iff]
  exact ⟨fun ⟨rest, line, runs, stay, closed⟩ => ⟨rest, line, runs, stay, closed⟩,
    fun ⟨rest, line, runs, stay, closed⟩ => ⟨rest, line, runs, stay, closed⟩⟩

/-- The laws of all lanes and of the wait list, and, where q asks for them, the ranges of the parcels. -/
structure State.AllOk (q : Prop) (s : State) : Prop where
  lanes : ∀ l, (s.lane l).Sane
  waits : WaitListLaw s
  bound : s.delivery.samples.length ≤ 32
  parcels : q → ∀ l, LaneParcelLaw (s.lane l)
  queue : q → ∀ p ∈ s.delivery.samples, p.inRange = true

/-- The laws of the work are those of the lanes and of the wait list. -/
theorem WorkLaws.allOk {s : State} (h : WorkLaws s) : s.AllOk False := by
  obtain ⟨bounds, _, _, lanes, table, _, waits⟩ := h
  obtain ⟨_, bound, _⟩ := bounds
  exact ⟨fun l => (Lane.sane_iff _).2 ⟨lanes l, ((runTableLaw_iff s).1 table).once l⟩, waits, bound, False.elim, False.elim⟩

theorem ParcelLaw.allOk {s : State} (h : WorkLaws s) (parcels : ParcelLaw s) : s.AllOk True :=
  ⟨h.allOk.lanes, h.allOk.waits, h.allOk.bound, fun _ => parcels.2.1, fun _ => parcels.2.2.1⟩

/-- The laws of all lanes hold of each lane as it begins to work. -/
theorem State.AllOk.work {s : State} (h : s.AllOk q) (l : LaneId) : s.WorkOk q l := by
  obtain ⟨rest, line, runs, stay, closed⟩ := h.lanes l
  obtain ⟨once, full, listed⟩ := h.waits
  refine ⟨⟨line, runs, ⟨once, h.bound, full, fun m _ => listed m, (listed l).1, fun complete => (listed l).2 ?_⟩,
    fun hq => ⟨h.parcels hq l, h.queue hq⟩⟩, rest, stay, closed, fun trails => (listed l).2 ((Lane.hasPart_iff _).2 (.inr trails))⟩
  unfold Lane.hasPart
  rw [complete]
  rfl

/-! ### Changes of one lane, and of none -/

theorem Lane.sane_hum {x : Lane} (h : x.Sane) (a : LaneHum) : Lane.Sane { x with hum := a } :=
  ⟨h.rest, ⟨h.line.room, h.line.marks, h.line.held, h.line.assembly⟩, h.runs, h.stay, h.closed⟩

/-- When one lane has worked, the laws of all lanes hold. -/
theorem State.AllOk.of_work {s t : State} {l : LaneId} (h : s.AllOk q)
    (others : ∀ m, m ≠ l → ∃ a, t.lane m = { s.lane m with hum := a }) (ok : t.WorkOk q l) : t.AllOk q where
  lanes m := by
    by_cases hm : m = l
    · subst hm
      exact ⟨ok.rest, ok.line, ok.runs, ok.stay, ok.closed⟩
    · obtain ⟨a, lane⟩ := others m hm
      rw [lane]
      exact Lane.sane_hum (h.lanes m) a
  waits := by
    refine ⟨ok.waits.nodup, ok.waits.full, fun m => ?_⟩
    by_cases hm : m = l
    · subst hm
      refine ⟨ok.waits.own, fun part => ?_⟩
      rcases (Lane.hasPart_iff _).1 part with ⟨b, ms, f, complete⟩ | trails
      · exact ok.waits.complete (by rw [complete]; rfl)
      · exact ok.trailing trails
    · exact ok.waits.others m hm
  bound := ok.waits.bound
  parcels hq m := by
    by_cases hm : m = l
    · subst hm
      exact (ok.ranges hq).1
    · obtain ⟨a, lane⟩ := others m hm
      rw [lane]
      exact h.parcels hq m
  queue hq := (ok.ranges hq).2

theorem State.AllOk.of_move {s t : State} {l : LaneId} (h : s.AllOk q) (moved : LaneMove l s t) (ok : t.WorkOk q l) :
    t.AllOk q := h.of_work (fun _ => moved.others) ok

/-- Lane y is lane x but for what its laws do not speak of. -/
def Lane.Alike (x y : Lane) : Prop :=
  ∃ c t n a, y = { x with config := c, timer := t, counters := n, hum := a }

/-- The two queues are as they were, and so is all of every lane that the laws speak of. -/
theorem State.AllOk.of_alike {s t : State} (h : s.AllOk q) (same : s.QueueSame t)
    (alike : ∀ m, (s.lane m).Alike (t.lane m)) : t.AllOk q where
  lanes m := by
    obtain ⟨c, tm, n, a, lane⟩ := alike m
    obtain ⟨rest, ⟨room, marks, held, assembly⟩, runs, stay, closed⟩ := h.lanes m
    rw [lane]
    exact ⟨rest, ⟨room, marks, held, assembly⟩, runs, stay, closed⟩
  waits := by
    obtain ⟨once, full, listed⟩ := h.waits
    refine ⟨same.1 ▸ once, same.1 ▸ same.2 ▸ full, fun m => ?_⟩
    obtain ⟨c, tm, n, a, lane⟩ := alike m
    rw [same.1, lane]
    exact listed m
  bound := same.2 ▸ h.bound
  parcels hq m := by
    obtain ⟨c, tm, n, a, lane⟩ := alike m
    rw [lane]
    exact h.parcels hq m
  queue hq := same.2 ▸ h.queue hq

theorem State.AllOk.of_lanes {s t : State} (h : s.AllOk q) (same : s.QueueSame t) (lanes : t.lanes = s.lanes) : t.AllOk q :=
  h.of_alike same fun m => ⟨_, _, _, _, by unfold State.lane; rw [lanes]⟩

theorem State.AllOk.of_humOnly {s t : State} (h : s.AllOk q) (same : s.QueueSame t) (hum : HumOnly s t) : t.AllOk q :=
  h.of_alike same fun m => by
    obtain ⟨a, lane⟩ := hum m
    exact ⟨_, _, _, _, lane⟩

/-- A lane is left with nothing held, no records, no parcel in assembly and no marks, and with no part in the wait list. -/
theorem State.AllOk.of_empty {s t : State} {l : LaneId} (h : s.AllOk q)
    (others : ∀ m, m ≠ l → ∃ a, t.lane m = { s.lane m with hum := a })
    (empty : (t.lane l).held = [] ∧ (t.lane l).det.runs = [] ∧ (t.lane l).assembly = .empty ∧ (t.lane l).marks = [])
    (samples : t.delivery.samples = s.delivery.samples) (waiting : t.waitList = s.waitList.filter fun m => decide (m ≠ l)) :
    t.AllOk q := by
  obtain ⟨held, runs, assembly, marks⟩ := empty
  obtain ⟨once, full, listed⟩ := h.waits
  have none : ∀ {P : RunRecord → Prop}, ∀ r ∈ (t.lane l).det.runs, P r := fun r hr => by
    rw [runs] at hr
    contradiction
  have untrailing : ¬(t.lane l).trailing = true := fun trails => ((Lane.trailing_iff _).1 trails).2.2.2 marks
  refine h.of_work others ⟨⟨⟨?_, by simp [marks], by rw [held]; rfl, ?_⟩, .nil runs _, ⟨?_, ?_, fun some => ?_, fun m hm => ?_,
    fun c => ?_, fun waits => ?_⟩, fun hq => ⟨⟨?_, ?_, ?_⟩, ?_⟩⟩, fun _ => ⟨held, runs, assembly, marks⟩, none, fun _ => none,
    fun trails => absurd trails untrailing⟩
  · rw [Lane.occupancy, held]
    exact Nat.zero_le _
  · refine (Lane.assemblyLawful_empty assembly).2 fun p ps some => ?_
    rw [held] at some
    contradiction
  · exact waiting ▸ once.filter _
  · exact samples ▸ h.bound
  · rw [samples]
    refine full fun none => some ?_
    rw [waiting, none]
    rfl
  · obtain ⟨a, lane⟩ := others m hm
    rw [waiting, List.mem_filter, lane]
    exact (and_iff_left (decide_eq_true hm)).trans (listed m)
  · rw [waiting] at c
    exact absurd rfl (of_decide_eq_true (List.mem_filter.1 c).2)
  · rw [assembly] at waits
    contradiction
  · simp [marks]
  · simp [held]
  · rw [assembly]
    rfl
  · exact samples ▸ h.queue hq

/-- A lane at rest has no part in the wait list. -/
theorem State.AllOk.unlisted {s : State} {l : LaneId} (h : s.AllOk q) (rest : (s.lane l).state.atRest = true) :
    s.waitList.filter (fun m => decide (m ≠ l)) = s.waitList := by
  refine List.filter_eq_self.2 fun m hm => decide_eq_true ?_
  rintro rfl
  obtain ⟨_, _, assembly, marks⟩ := (h.lanes m).rest rest
  rcases (Lane.hasPart_iff _).1 ((h.waits.2.2 m).1 hm) with ⟨b, ms, f, complete⟩ | trails
  · rw [assembly] at complete
    contradiction
  · exact ((Lane.trailing_iff _).1 trails).2.2.2 marks

/-! ### The commands -/

/-- A lane at rest that becomes OFF (R9, R23). -/
theorem State.AllOk.becomeOff {s : State} {l : LaneId} (h : s.AllOk q) (rest : (s.lane l).state.atRest = true) :
    (s.becomeOff l).AllOk q := by
  obtain ⟨held, runs, assembly, marks⟩ := (h.lanes l).rest rest
  have queues := s.queueSame_becomeOff l
  refine h.of_empty (fun m hm => s.lane_becomeOff_ne hm) ?_ queues.2 (queues.1.trans (h.unlisted rest).symm)
  rw [State.lane_becomeOff_same]
  exact ⟨held, runs, assembly, marks⟩

/-- An abort (R11). -/
theorem State.AllOk.abort {s : State} (h : s.AllOk q) (l : LaneId) : (s.abort l).AllOk q := by
  rw [State.abort_eq]
  have queues := (s.discarded l).queueSame_becomeOff l
  refine h.of_empty (l := l) (fun m hm => ?_) ?_ queues.2 queues.1
  · obtain ⟨a, lane⟩ := (s.discarded l).lane_becomeOff_ne hm
    exact ⟨a, lane.trans (congrArg (fun x : Lane => { x with hum := a }) (State.lane_modLane_ne s (fun _ => _) hm))⟩
  · rw [State.lane_becomeOff_same, State.lane_discarded]
    exact ⟨rfl, rfl, rfl, rfl⟩

/-- START_LANE (R7). -/
theorem State.AllOk.armLane {s : State} {l : LaneId} (h : s.AllOk q) (off : (s.lane l).state = .off) :
    (s.armLane l).AllOk q := by
  have rest : (s.lane l).state.atRest = true := by rw [off]; rfl
  obtain ⟨held, runs, assembly, marks⟩ := (h.lanes l).rest rest
  have queues : s.QueueSame (s.armLane l) := (s.queueSame_changeState l .armed).modLane l _
  refine h.of_empty (l := l) (fun m hm => ⟨_, by rw [State.lane_armLane off, if_neg hm]⟩) ?_ queues.2
    (queues.1.trans (h.unlisted rest).symm)
  rw [State.lane_armLane off, if_pos rfl]
  exact ⟨held, runs, assembly, marks⟩

/-- A drain toward ARMED that goes on toward OFF (R9). -/
theorem State.AllOk.retarget {s : State} {l : LaneId} (h : s.AllOk q) (draining : (s.lane l).state = .draining .armed) :
    (s.changeState l (.draining .off)).AllOk q := by
  have was : (s.lane l).state ≠ .off := by rw [draining]; simp
  have ok := h.work l
  have queues := s.queueSame_changeState l (.draining .off)
  obtain ⟨a, lane⟩ := s.lane_changeState l (.draining .off) l
  rw [if_pos rfl] at lane
  have flushing : (s.lane l).state.isFlushing = true := by rw [draining]; rfl
  refine h.of_move (.changeState s _ was (by simp)) ⟨ok.toLineOk.changeState was (by simp) fun _ => rfl, ?_, ?_, ?_, fun trails => ?_⟩
  · rw [lane]
    intro rest
    contradiction
  · rw [lane]
    exact ok.stay
  · rw [lane]
    exact fun _ => ok.closed flushing
  · rw [queues.1]
    rw [lane] at trails
    obtain ⟨_, rest⟩ := (Lane.trailing_iff _).1 trails
    exact ok.trailing ((Lane.trailing_iff _).2 ⟨flushing, rest⟩)

theorem Lane.alike_markRestart (x : Lane) (k : ProfileId) : x.Alike (x.markRestart k) := by
  unfold Lane.markRestart
  split
  · exact ⟨_, _, _, _, rfl⟩
  · exact ⟨_, _, _, _, rfl⟩

theorem Lane.sane_cleared (c : LaneConfig) : (Lane.cleared c).Sane := by
  refine ⟨fun _ => ⟨rfl, rfl, rfl, rfl⟩, ⟨Nat.zero_le _, Nat.zero_le _, rfl, rfl⟩, .nil rfl _, ?_, fun flushing => ?_⟩
  · intro r hr
    contradiction
  · contradiction

/-- RESET_PART clears every lane (R170). -/
theorem State.AllOk.resetPart (s : State) : s.resetPart.AllOk q where
  lanes l := by
    rw [State.lane_resetPart]
    exact Lane.sane_cleared _
  waits := by
    refine ⟨List.nodup_nil, fun some => absurd rfl some, fun l => ?_⟩
    rw [State.lane_resetPart]
    exact ⟨fun listed => by contradiction, fun part => by contradiction⟩
  bound := Nat.zero_le _
  parcels _ l := by
    rw [State.lane_resetPart]
    exact ⟨by simp [Lane.cleared], by simp [Lane.cleared], rfl⟩
  queue _ p hp := by contradiction

theorem DeliveryPort.samples_commitDue (d : DeliveryPort) : d.commitDue.samples = d.samples := by
  unfold DeliveryPort.commitDue
  split <;> rfl

/-- The rule of a command keeps the laws. -/
theorem CommandEffect.allOk {s t : State} (effect : CommandEffect s t) (h : s.AllOk q) : t.AllOk q := by
  have searched : ∀ c : Checker, (State.checkerSearch { s with checker := c } 0 3).AllOk q := fun c =>
    have only := State.checkerSearch_only { s with checker := c } 0 3
    h.of_lanes (State.QueueSame.trans ⟨rfl, rfl⟩ only.queueSame) only.lanes
  cases effect with
  | kept => exact h
  | configured l c _ _ =>
    refine h.of_alike (State.QueueSame.wake ((State.QueueSame.refl s).modLane l _) l) fun m => ?_
    rw [State.lane_configured]
    split
    · rename_i hm
      subst hm
      exact ⟨_, _, _, _, rfl⟩
    · exact ⟨_, _, _, _, rfl⟩
  | armed l off _ => exact h.armLane off
  | stopped l rests =>
    refine (h.becomeOff (l := l) ?_).of_lanes (State.QueueSame.issue (.refl _) _) rfl
    rcases rests with armed | stalled
    · rw [armed]
      rfl
    · rw [stalled]
      rfl
  | drained l running =>
    exact h.of_move (s.beginDrain_move l .off (LaneState.ne_off_of_isRunning running)) ((h.work l).beginDrain running .off)
  | retargeted l draining => exact h.retarget draining
  | aborted l _ => exact h.abort l
  | countersCleared l =>
    refine h.of_alike ((State.QueueSame.refl s).modLane l _) fun m => ?_
    by_cases hm : m = l
    · subst hm
      rw [State.lane_modLane_same]
      exact ⟨_, _, _, _, rfl⟩
    · rw [State.lane_modLane_ne s _ hm]
      exact ⟨_, _, _, _, rfl⟩
  | humSwapped k _ =>
    exact h.of_humOnly (State.QueueSame.trans ⟨rfl, rfl⟩ (State.queueSame_swap _ k none 0))
      ((HumOnly.of_lanes fun _ => rfl).trans (.swap _ _ _ _))
  | resynced k =>
    refine h.of_alike ⟨rfl, rfl⟩ fun m => ?_
    rw [State.lane_map]
    exact (s.lane m).alike_markRestart k
  | patternSet p => exact searched _
  | checkerAttached new => exact searched _
  | flushed _ => exact h.of_lanes ⟨rfl, s.delivery.samples_commitDue⟩ rfl
  | deliverySet f t => exact h.of_lanes ⟨rfl, rfl⟩ rfl
  | partReset => exact State.AllOk.resetPart s
  | _ => exact h.of_lanes ⟨rfl, rfl⟩ rfl

end Sys2Proof.Machine
end

section
/-! The repair unit and the placement wait list keep the laws of the lanes and of the wait list (R82 to R84, R104). -/

namespace Sys2Proof.Machine

variable {q : Prop} {s : State} {l : LaneId}

/-! ### The repair unit -/

theorem Lane.mem_runsIn {x : Lane} {st : RunState} {n : Nat} :
    n ∈ x.runsIn st ↔ ∃ r ∈ x.det.runs, r.state = st ∧ r.number = n := by
  simp [Lane.runsIn, and_assoc]

/-- A lane that has a run record is at work (R5). -/
theorem State.WorkOk.working (h : s.WorkOk q l) {r : RunRecord} (listed : r ∈ (s.lane l).det.runs) :
    (s.lane l).state.atRest = false := by
  refine Bool.eq_false_of_not_eq_true fun rest => ?_
  obtain ⟨_, runs, _, _⟩ := h.rest rest
  rw [runs] at listed
  contradiction

/-- What a run that does not grow has: its last position is still held (R90). -/
theorem State.WorkOk.held (h : s.WorkOk q l) {r : RunRecord} (listed : r ∈ (s.lane l).det.runs) (still : r.growing = false) :
    (s.lane l).headPosition ≤ r.last := by
  rcases h.stay r listed with growing | behind
  · rw [still] at growing
    contradiction
  · exact behind

/-- The repair unit's own record does not touch the lanes or the queues. -/
theorem State.WorkOk.setRepair (h : s.WorkOk q l) (r : RepairUnit) : State.WorkOk q l { s with repair := r } :=
  h.noted (.repair s r) ⟨rfl, rfl⟩ (.refl _)

/-- The take of the repair unit (R82). -/
theorem State.WorkOk.takeRun (h : s.WorkOk q l) {r : RunRecord} (listed : r ∈ (s.lane l).det.runs) (queued : r.state = .queued) :
    (s.modDet l fun d => d.modRun r.number fun r => { r with state := .repairing }).WorkOk q l := by
  have anchored := h.runs.anchored r listed
  unfold RunRecord.anchored at anchored
  rw [queued] at anchored
  have still : r.growing = false := by
    simp only [Bool.and_eq_true, Bool.not_eq_true'] at anchored
    exact anchored.1.1
  obtain ⟨ok, stay⟩ := h.toLineOk.modRun (f := fun r => { r with state := .repairing }) h.stay listed (h.held listed still)
    (fun _ => rfl) (fun _ => ⟨rfl, rfl⟩) (fun _ => id) anchored fun _ opened => by contradiction
  have lane : (s.modDet l fun d => d.modRun r.number fun r => { r with state := .repairing }).lane l
      = { s.lane l with det := (s.lane l).det.modRun r.number fun r => { r with state := .repairing } } :=
    State.lane_modLane_same s l _
  refine ⟨ok, ?_, stay, ?_, ?_⟩
  · rw [lane]
    exact fun rest => absurd (rest.symm.trans (h.working listed)) (by decide)
  · rw [lane]
    intro flushing a ha
    obtain ⟨b, hb, rfl⟩ := List.mem_map.1 ha
    have grows := h.closed flushing b hb
    split
    · exact grows
    · exact grows
  · rw [lane]
    exact h.trailing

/-- Parcel p with other values for its samples. -/
def HeldParcel.SameShape (p p' : HeldParcel) : Prop := ∃ vs, p' = { p with samples := vs } ∧ vs.length = p.samples.length

theorem length_repairSamples (r : RunRecord) (lv rv : Sample) : ∀ (x : Nat) (vs : List Sample),
    (repairSamples r lv rv x vs).length = vs.length
  | _, [] => rfl
  | x, _ :: vs => congrArg (· + 1) (length_repairSamples r lv rv (x + 1) vs)

theorem HeldParcel.sameShape_repair (p : HeldParcel) (r : RunRecord) (lv rv : Sample) : p.SameShape (p.repair r lv rv) := by
  unfold HeldParcel.repair
  split
  · exact ⟨_, rfl, length_repairSamples r lv rv _ _⟩
  · exact ⟨_, rfl, rfl⟩

section
variable {f : HeldParcel → HeldParcel} (shape : ∀ p : HeldParcel, p.SameShape (f p))
include shape

theorem heldFrom_map {next : Nat} : ∀ {held : List HeldParcel}, heldFrom next held = true →
    heldFrom next (held.map f) = true
  | [], _ => rfl
  | p :: ps, h => by
    obtain ⟨⟨some, count⟩, last, near, rest⟩ := (heldFrom_cons next p ps).1 h
    obtain ⟨vs, same, length⟩ := shape p
    have some' : vs ≠ [] := List.ne_nil_of_length_pos (length ▸ List.length_pos_of_ne_nil some)
    rw [List.map_cons, same]
    refine (heldFrom_cons next _ _).2 ⟨⟨some', ?_⟩, fun none => last (List.map_eq_nil_iff.1 none), fun q qs e => ?_,
      heldFrom_map rest⟩
    · dsimp only
      rw [length]
      exact count
    · obtain ⟨r, rs, rfl, rfl, _⟩ := List.map_eq_cons_iff.1 e
      obtain ⟨ws, same', _⟩ := shape r
      rw [same']
      exact near r rs rfl

theorem Lane.occupancy_map (x : Lane) : Lane.occupancy { x with held := x.held.map f } = x.occupancy := by
  unfold Lane.occupancy
  rw [List.map_map]
  refine congrArg List.sum (List.map_congr_left fun p _ => ?_)
  obtain ⟨vs, same, length⟩ := shape p
  exact (congrArg (fun p => p.samples.length) same).trans length

theorem Lane.headPosition_map (x : Lane) : Lane.headPosition { x with held := x.held.map f } = x.headPosition := by
  unfold Lane.headPosition
  dsimp only
  cases x.held with
  | nil => rfl
  | cons p ps =>
    obtain ⟨vs, same, _⟩ := shape p
    rw [List.map_cons, same]

theorem Lane.assemblyLawful_map (x : Lane) : Lane.assemblyLawful { x with held := x.held.map f } = x.assemblyLawful := by
  unfold Lane.assemblyLawful
  dsimp only
  cases x.held with
  | nil => rfl
  | cons p ps =>
    obtain ⟨vs, same, _⟩ := shape p
    rw [List.map_cons, same]
    cases x.assembly <;> rfl

/-- New values for held samples leave the laws of the lane (R83). -/
theorem State.WorkOk.mapHeld (h : s.WorkOk q l) : (s.modLane l fun x => { x with held := x.held.map f }).WorkOk q l := by
  have moved : LaneMove l s (s.modLane l fun x => { x with held := x.held.map f }) := .modLane s _
  have lane : (s.modLane l fun x => { x with held := x.held.map f }).lane l
      = { s.lane l with held := (s.lane l).held.map f } := State.lane_modLane_same s l _
  have trailing : ((s.modLane l fun x => { x with held := x.held.map f }).lane l).trailing = true
      ↔ (s.lane l).trailing = true := by
    rw [Lane.trailing_iff, Lane.trailing_iff, lane]
    exact and_congr_right fun _ => and_congr_left fun _ => List.map_eq_nil_iff
  refine ⟨h.toLineOk.of_move moved ⟨rfl, rfl⟩ ?_ ?_ (fun part => ?_) ?_ fun ⟨marks, counts, parts⟩ => ?_, ?_, ?_, ?_,
    fun trails => h.trailing (trailing.1 trails)⟩
  · rw [lane]
    exact ⟨((s.lane l).occupancy_map shape).trans_le h.line.room, h.line.marks, heldFrom_map shape h.line.held,
      ((s.lane l).assemblyLawful_map shape).trans h.line.assembly⟩
  · rw [lane]
    exact h.runs
  · rw [Lane.hasPart_iff, trailing, lane]
    exact (Lane.hasPart_iff _).1 part
  · rw [lane]
    exact id
  · rw [lane]
    refine ⟨marks, List.forall_mem_map.2 fun p hp => ?_, parts⟩
    obtain ⟨vs, same, _⟩ := shape p
    rw [same]
    exact counts p hp
  · rw [lane]
    intro rest
    obtain ⟨held, runs, assembly, marks⟩ := h.rest rest
    exact ⟨List.map_eq_nil_iff.2 held, runs, assembly, marks⟩
  · have head := (s.lane l).headPosition_map shape
    rw [← lane] at head
    rw [head, lane]
    exact h.stay
  · rw [lane]
    exact h.closed

end

theorem State.modLane_modLane (s : State) (l : LaneId) (f g : Lane → Lane) :
    (s.modLane l f).modLane l g = s.modLane l fun x => g (f x) := by simp [State.modLane]

/-- A change of a lane counts by what it makes of the lane's entry. -/
theorem State.modLane_congr {f g : Lane → Lane} (h : f (s.lane l) = g (s.lane l)) : s.modLane l f = s.modLane l g := by
  unfold State.modLane
  exact congrArg (fun x => { s with lanes := s.lanes.set l x }) h

/-- The repair of a run is new values for held samples and the new state of its record (R83, R84). -/
theorem Lane.repairRun_eq {x : Lane} {r : RunRecord} (listed : r ∈ x.det.runs) :
    ∃ f : HeldParcel → HeldParcel, (∀ p : HeldParcel, p.SameShape (f p)) ∧ x.repairRun r.number =
      { x with
        held := x.held.map f
        det := x.det.modRun r.number fun r => { r with state := .repaired, growing := false } } := by
  obtain ⟨a, found⟩ : ∃ a, x.det.runs.find? (fun a => decide (a.number = r.number)) = some a :=
    Option.isSome_iff_exists.1 (List.find?_isSome.2 ⟨r, listed, decide_eq_true rfl⟩)
  unfold Lane.repairRun
  rw [found]
  exact ⟨_, fun p => p.sameShape_repair _ _ _, rfl⟩

/-- The completion of a repair, and the departure that follows (R84). -/
theorem State.WorkOk.completeRun (h : s.WorkOk q l) {r : RunRecord} (listed : r ∈ (s.lane l).det.runs)
    (repairing : r.state = .repairing) : ((s.modLane l fun x => x.repairRun r.number).depart l).WorkOk q l := by
  have anchored := h.runs.anchored r listed
  unfold RunRecord.anchored at anchored
  rw [repairing] at anchored
  have still : r.growing = false := by
    simp only [Bool.and_eq_true, Bool.not_eq_true'] at anchored
    exact anchored.1.1
  obtain ⟨f, shape, repaired⟩ := Lane.repairRun_eq listed
  have lane : (s.modLane l fun x => { x with held := x.held.map f }).lane l = { s.lane l with held := (s.lane l).held.map f } :=
    State.lane_modLane_same s l _
  have steps : s.modLane l (fun x => x.repairRun r.number) =
      (s.modLane l fun x => { x with held := x.held.map f }).modDet l
        fun d => d.modRun r.number fun r => { r with state := .repaired, growing := false } := by
    unfold State.modDet
    rw [State.modLane_modLane]
    exact State.modLane_congr repaired
  have values := h.mapHeld shape
  have working := h.working listed
  have closed := h.closed
  rw [steps]
  generalize (s.modLane l fun x => { x with held := x.held.map f }) = t at lane values
  have same : (t.lane l).state = (s.lane l).state ∧ (t.lane l).det = (s.lane l).det := by
    rw [lane]
    exact ⟨rfl, rfl⟩
  rw [← same.1, ← same.2] at closed
  rw [← same.1] at working
  rw [← same.2] at listed
  obtain ⟨ok, stay⟩ := values.toLineOk.modRun (f := fun r => { r with state := .repaired, growing := false }) values.stay listed
    (values.held listed still) (fun _ => rfl) (fun _ => ⟨rfl, rfl⟩) (fun _ _ => rfl) rfl fun _ opened => by contradiction
  have lane' : (t.modDet l fun d => d.modRun r.number fun r => { r with state := .repaired, growing := false }).lane l
      = { t.lane l with det := (t.lane l).det.modRun r.number fun r => { r with state := .repaired, growing := false } } :=
    State.lane_modLane_same t l _
  refine ok.depart stay ?_ ?_
  · rw [lane']
    exact working
  · rw [lane']
    intro flushing a ha
    obtain ⟨b, hb, rfl⟩ := List.mem_map.1 ha
    split
    · rfl
    · exact closed flushing b hb

/-- The law of the repair unit on its entries (R80). -/
theorem State.AllOk.takeRepair (h : s.AllOk q) (queued : ∀ e ∈ s.repair.queue, e.run ∈ (s.lane e.lane).runsIn .queued) :
    s.takeRepair.AllOk q := by
  unfold State.takeRepair
  split
  · rename_i e rest _ queue
    obtain ⟨r, listed, state, number⟩ := Lane.mem_runsIn.1 (queued e (by rw [queue]; exact .head _))
    rw [← number]
    refine h.of_move ((LaneMove.repair s _).trans (.modDet _ _ fun d => ?_))
      (((h.work e.lane).setRepair { queue := rest, inProgress := some e }).takeRun listed state)
    exact sublist_of_eq (d.numbers_modRun _ fun _ => rfl)
  · exact h
  · exact h

theorem State.AllOk.completeRepair (h : s.AllOk q)
    (repairing : ∀ e ∈ s.repair.inProgress.toList, e.run ∈ (s.lane e.lane).runsIn .repairing) : s.completeRepair.AllOk q := by
  unfold State.completeRepair
  split
  · exact h
  · rename_i e busy
    obtain ⟨r, listed, state, number⟩ := Lane.mem_runsIn.1 (repairing e (by rw [busy]; exact .head _))
    have idle := (h.work e.lane).setRepair { s.repair with inProgress := none }
    have woken := idle.noted (.wake _ e.lane) (State.QueueSame.wake (.refl _) e.lane) (by rw [State.lane_wake]; exact .refl _)
    have moved := ((LaneMove.repair (l := e.lane) s { s.repair with inProgress := none }).trans (.wake _ e.lane)).trans
      ((LaneMove.entry _ _ fun ln => ln.repairRun_inner e.run).trans (State.depart_move _ _))
    have order : State.wake { s.modLane e.lane fun x => x.repairRun e.run with repair := { s.repair with inProgress := none } } e.lane
        = (State.wake { s with repair := { s.repair with inProgress := none } } e.lane).modLane e.lane fun x => x.repairRun e.run := by
      rw [State.wake_offeredAgain, State.wake_offeredAgain]
      rfl
    dsimp only
    refine h.of_move (order ▸ moved) ?_
    refine (congrArg (fun u : State => (u.depart e.lane).WorkOk q e.lane) order).mpr ?_
    rw [← number]
    exact woken.completeRun (by rw [State.lane_wake]; exact listed) state

end Sys2Proof.Machine
end

section
/-! The service of the placement wait list keeps the laws of the lanes and of the wait list (R104). -/

namespace Sys2Proof.Machine

variable {q : Prop} {s : State} {l : LaneId}

/-- A place has been left at the head of the sample queue, and one parcel x of lane l, the head of the wait list, has taken
it: s is the part before, t the part after, in which the lane stands in the list as long as it has a part. -/
structure State.Served (l : LaneId) (x : OutParcel) (s t : State) : Prop where
  others : ∀ m, m ≠ l → ∃ a, t.lane m = { s.lane m with hum := a }
  lane : ∃ a ms c, t.lane l = { s.lane l with assembly := a, marks := ms, counters := c }
  samples : t.delivery.samples = s.delivery.samples.tail ++ [x]
  waiting : t.waitList = if (t.lane l).hasPart = true then s.waitList else s.waitList.tail.filter fun m => decide (m ≠ l)

/-- A lane that has a part is at work (R5). -/
theorem State.AllOk.working_of_part (h : s.AllOk q) (part : (s.lane l).hasPart = true) : (s.lane l).state.atRest = false := by
  refine Bool.eq_false_of_not_eq_true fun rest => ?_
  obtain ⟨_, _, assembly, marks⟩ := (h.lanes l).rest rest
  rcases (Lane.hasPart_iff _).1 part with ⟨b, ms, f, complete⟩ | trails
  · rw [assembly] at complete
    contradiction
  · exact ((Lane.trailing_iff _).1 trails).2.2.2 marks

/-- What the laws say of the part whose wait list has been served with the freed place. -/
theorem State.AllOk.served (h : s.AllOk q) {t : State} {x : OutParcel} {ls : List LaneId} (waiting : s.waitList = l :: ls)
    (served : s.Served l x t) (inRange : q → x.inRange = true) (line : (t.lane l).HeldOk)
    (parcels : LaneParcelLaw (s.lane l) → LaneParcelLaw (t.lane l)) :
    if (t.lane l).hasPart = true then t.WorkOk q l else (t.depart l).WorkOk q l := by
  obtain ⟨others, ⟨a, ms, c, lane⟩, samples, waiting'⟩ := served
  obtain ⟨once, full, listed⟩ := h.waits
  rw [waiting] at once full waiting'
  have working := h.working_of_part ((listed l).1 (by rw [waiting]; exact .head _))
  have before := full (List.cons_ne_nil l ls)
  obtain ⟨rest, _, runs, stay, closed⟩ := h.lanes l
  have length : t.delivery.samples.length = 32 := by
    rw [samples, List.length_append, List.length_tail, before]
    rfl
  have listed' : ∀ m, m ∈ t.waitList ↔ (t.lane m).hasPart = true := fun m => by
    by_cases hm : m = l
    · subst hm
      rw [waiting']
      split
      · rename_i part
        exact iff_of_true (.head _) part
      · rename_i none
        exact iff_of_false (fun c => of_decide_eq_true (List.mem_filter.1 c).2 rfl) none
    · obtain ⟨b, other⟩ := others m hm
      have old := listed m
      rw [waiting, List.mem_cons, or_iff_right hm] at old
      rw [waiting', other]
      split
      · exact (List.mem_cons.trans (or_iff_right hm)).trans old
      · exact List.mem_filter.trans ((and_iff_left (decide_eq_true hm)).trans old)
  have once' : t.waitList.Nodup := by
    rw [waiting']
    split
    · exact once
    · exact (List.nodup_cons.1 once).2.filter _
  have own : (t.lane l).assembly.canTake = false → l ∈ t.waitList := fun complete => by
    rw [listed' l]
    unfold Lane.hasPart
    rw [complete]
    rfl
  have ok : t.LineOk q l := by
    refine ⟨line, ?_, ⟨once', length.le, fun _ => length, fun m _ => listed' m, (listed' l).1, own⟩, fun hq => ⟨parcels
      (h.parcels hq l), ?_⟩⟩
    · rw [lane]
      exact runs
    · rw [samples]
      exact List.forall_mem_append.2 ⟨fun p hp => h.queue hq p (List.mem_of_mem_tail hp), List.forall_mem_singleton.2 (inRange hq)⟩
  have stay' : (t.lane l).det.AllStay (t.lane l).headPosition := by
    rw [lane]
    exact stay
  have working' : (t.lane l).state.atRest = false := by
    rw [lane]
    exact working
  have closed' : (t.lane l).state.isFlushing = true → ∀ r ∈ (t.lane l).det.runs, r.growing = false := by
    rw [lane]
    exact closed
  split
  · exact ⟨ok, fun rest => absurd (rest.symm.trans working') (by decide), stay', closed', fun trails =>
      (listed' l).2 ((Lane.hasPart_iff _).2 (.inr trails))⟩
  · exact ok.depart stay' working' closed'

/-- The service of the wait list places the next part as u, and goes on with departure when that was the last one. -/
theorem State.AllOk.serveWait (h : s.AllOk q) {u r : State} {x : OutParcel} {ls : List LaneId} (waiting : s.waitList = l :: ls)
    (same : ∀ m, r.lane m = s.lane m) (placed : r.placeNextPart l = u.settle l)
    (others : ∀ m, m ≠ l → ∃ a, u.lane m = { s.lane m with hum := a })
    (lane : ∃ a ms c, u.lane l = { s.lane l with assembly := a, marks := ms, counters := c })
    (samples : u.delivery.samples = s.delivery.samples.tail ++ [x]) (waiting' : u.waitList = s.waitList)
    (inRange : q → x.inRange = true) (line : (u.lane l).HeldOk)
    (parcels : LaneParcelLaw (s.lane l) → LaneParcelLaw (u.lane l)) : (r.serveWait l).AllOk q := by
  have after : ∀ m, m ≠ l → ∃ a, (r.serveWait l).lane m = { s.lane m with hum := a } := fun m hm => by
    obtain ⟨a, moved⟩ := (r.serveWait_move l).others hm
    exact ⟨a, by rw [moved, same]⟩
  refine h.of_work after ?_
  by_cases part : (u.lane l).hasPart = true
  · have served := h.served waiting (t := u) ⟨others, lane, samples, by rw [if_pos part]; exact waiting'⟩ inRange line parcels
    rw [State.serveWait_more placed part]
    exact (if_pos part).mp served
  · have served := h.served waiting (t := { u with waitList := ls.filter fun m => decide (m ≠ l) })
      ⟨others, lane, samples, (if_neg part).symm ▸ by rw [waiting]; rfl⟩ inRange line parcels
    rw [State.serveWait_left placed (Bool.eq_false_of_not_eq_true part) (waiting'.trans waiting)]
    exact (if_neg part).mp served

/-- A leading mark or the SAMPLES parcel of a COMPLETE assembly takes the freed place (R103, R104). -/
theorem State.AllOk.serveComplete (h : s.AllOk q) {r : State} {ls : List LaneId}
    (waiting : s.waitList = l :: ls) (same : ∀ m, r.lane m = s.lane m) (waiting' : r.waitList = s.waitList)
    (samples : r.delivery.samples = s.delivery.samples.tail) {b : AssemblyBody} {ms : List MarkEntry} {f : SampleFlags}
    (complete : (s.lane l).assembly = .complete b ms f) : (r.serveWait l).AllOk q := by
  obtain ⟨_, ok, _⟩ := h.lanes l
  obtain ⟨whole, fresh⟩ := (Lane.assemblyLawful_complete complete).1 ok.assembly
  have placed := State.placeNextPart_complete (s := r) (l := l) (by rw [same]; exact complete)
  have lane : (r.partsPlaced l b ms f 1).lane l = { s.lane l with assembly := b.leftOf ms f 1 } := by
    rw [State.lane_of_set (s := r) rfl, same]
  have others : ∀ m, m ≠ l → ∃ a, (r.partsPlaced l b ms f 1).lane m = { s.lane m with hum := a } := fun m hm =>
    ⟨_, (State.lane_modLane_ne r (fun _ => _) hm).trans (same m)⟩
  have line : ((r.partsPlaced l b ms f 1).lane l).HeldOk := by
    rw [lane]
    refine ⟨ok.room, ok.marks, ok.held, ?_⟩
    cases ms with
    | nil => exact (Lane.assemblyLawful_empty rfl).2 fresh
    | cons m ms => exact (Lane.assemblyLawful_complete rfl).2 ⟨whole, fresh⟩
  cases ms with
  | nil =>
    refine h.serveWait waiting same placed others ⟨_, _, _, lane⟩ (x := b.parcel l f) ?_ waiting' (fun hq => ?_) line
      fun ⟨marks, counts, _⟩ => ?_
    · exact congrArg (· ++ [b.parcel l f]) samples
    · obtain ⟨_, _, parts⟩ := h.parcels hq l
      rw [complete] at parts
      exact (Bool.and_eq_true_iff.1 parts).1
    · rw [lane]
      exact ⟨marks, counts, rfl⟩
  | cons m ms =>
    have offsets : LaneParcelLaw (s.lane l) → m.offset ≤ 511 ∧ (Assembly.complete b ms f).inRange = true := fun ⟨_, _, parts⟩ => by
      rw [complete] at parts
      obtain ⟨size, leads⟩ := Bool.and_eq_true_iff.1 parts
      obtain ⟨first, later⟩ := Bool.and_eq_true_iff.1 leads
      exact ⟨of_decide_eq_true first, Bool.and_eq_true_iff.2 ⟨size, later⟩⟩
    refine h.serveWait waiting same placed others ⟨_, _, _, lane⟩ (x := m.parcel l) ?_ waiting' (fun hq => ?_) line
      fun law => ?_
    · exact congrArg (· ++ [m.parcel l]) samples
    · exact decide_eq_true (offsets (h.parcels hq l)).1
    · rw [lane]
      exact ⟨law.1, law.2.1, (offsets law).2⟩

/-- A trailing mark takes the freed place (R104, R105). -/
theorem State.AllOk.serveTrailing (h : s.AllOk q) {r : State} {ls : List LaneId}
    (waiting : s.waitList = l :: ls) (same : ∀ m, r.lane m = s.lane m) (waiting' : r.waitList = s.waitList)
    (samples : r.delivery.samples = s.delivery.samples.tail) (trailing : (s.lane l).trailing = true) :
    (r.serveWait l).AllOk q := by
  obtain ⟨_, ok, _⟩ := h.lanes l
  obtain ⟨_, _, empty, some⟩ := (Lane.trailing_iff _).1 trailing
  obtain ⟨m, ms, marks⟩ := List.exists_cons_of_ne_nil some
  have count := ok.marks
  rw [marks, List.length_cons] at count
  have marks' : (r.lane l).marks = m :: ms := by rw [same]; exact marks
  have placed := State.placeNextPart_trailing (s := r) (by rw [same]; exact trailing) marks'
  obtain ⟨c, lane⟩ := r.trailingPlaced_after l m ms
  rw [same] at lane
  have move := r.placeTrailing_move l
  rw [State.placeTrailing_eq marks'] at move
  refine h.serveWait waiting same placed (fun k hk => ?_) ⟨_, _, _, lane⟩
    (x := .mark l m.kind m.seq m.offset m.value) ?_ ?_ (fun hq => ?_) ?_ fun ⟨offsets, counts, parts⟩ => ?_
  · obtain ⟨a, other⟩ := move.others hk
    exact ⟨a, by rw [other, same]⟩
  · rw [State.samples_trailingPlaced, samples]
  · exact (r.line_trailingPlaced l m ms).2.2.2.trans waiting'
  · exact decide_eq_true ((h.parcels hq l).1 m (by rw [marks]; exact .head _))
  · rw [lane]
    exact ⟨ok.room, Nat.le_of_succ_le count, ok.held, (Lane.assemblyLawful_empty empty).2
      ((Lane.assemblyLawful_empty empty).1 ok.assembly)⟩
  · rw [lane]
    rw [marks, List.forall_mem_cons] at offsets
    exact ⟨offsets.2, counts, parts⟩

/-- The head of the sample queue, if there is one, leaves (R152). -/
theorem DeliveryPort.samples_endSample (d : DeliveryPort) : d.endSample.samples = d.samples.tail := by
  unfold DeliveryPort.endSample
  cases d.samples <;> rfl

theorem DeliveryPort.samples_endMessage (d : DeliveryPort) : d.endMessage.samples = d.samples := by
  unfold DeliveryPort.endMessage
  split
  · rfl
  · dsimp only
    split <;> rfl

/-- The place that a sample parcel leaves goes to the head of the wait list (R104, R152). -/
theorem State.AllOk.waitServed (h : s.AllOk q) :
    (State.waitServed { s with delivery := s.delivery.endSample }).AllOk q := by
  obtain ⟨once, full, listed⟩ := h.waits
  have samples := s.delivery.samples_endSample
  unfold State.waitServed
  split
  · rename_i none
    have none : s.waitList = [] := none
    refine ⟨h.lanes, ⟨once, fun some => absurd none some, listed⟩, ?_, h.parcels, fun hq p hp => ?_⟩
    · change s.delivery.endSample.samples.length ≤ 32
      have bound := h.bound
      rw [samples, List.length_tail]
      omega
    · change p ∈ s.delivery.endSample.samples at hp
      rw [samples] at hp
      exact h.queue hq p (List.mem_of_mem_tail hp)
  · rename_i l ls waiting
    have waiting : s.waitList = l :: ls := waiting
    rcases (Lane.hasPart_iff _).1 ((listed l).1 (by rw [waiting]; exact .head _)) with ⟨b, ms, f, complete⟩ | trailing
    · exact h.serveComplete waiting (fun _ => rfl) rfl samples complete
    · exact h.serveTrailing waiting (fun _ => rfl) rfl samples trailing

/-- The end of a transmission (R152). -/
theorem State.AllOk.endTransmission (h : s.AllOk q) : s.endTransmission.AllOk q := by
  unfold State.endTransmission
  split
  · exact h
  · exact h.of_lanes ⟨rfl, s.delivery.samples_endMessage⟩ rfl
  · rw [State.endSampleTransmission_eq]
    dsimp only
    split
    · exact h.waitServed.of_lanes ⟨rfl, rfl⟩ rfl
    · exact h.waitServed

end Sys2Proof.Machine
end

section
/-! Every step keeps the laws of the lanes and of the wait list (R5, R21, R51, R71 to R73, R90, R97, R103). -/

namespace Sys2Proof.Machine

variable {q : Prop}

/-- A step is one of the effects on the part from whose waiting events the front one has been taken. -/
theorem step_effect {s t : State} (h : step s = .next t) : ∃ p, StepEffect { s with pending := p } t := by
  unfold step at h
  split at h
  · cases h
    exact ⟨s.pending, .tick⟩
  · rename_i c rest _
    obtain ⟨u, next, effect⟩ := exec_stepEffect c { s with pending := rest }
    rw [next] at h
    cases h
    exact ⟨rest, effect⟩

/-! ### The events outside the lanes -/

theorem State.waitList_intakeArrival (s : State) (rx : List RxWord) : (s.intakeArrival rx).waitList = s.waitList := by
  unfold State.intakeArrival
  dsimp only
  split
  · rfl
  · cases intakeVerdict rx with
    | damaged d =>
      simp only [State.acceptArrival, State.damagedArrival]
      split <;> rfl
    | misdirected => rfl
    | good p =>
      simp only [State.acceptArrival]
      split
      · cases p <;> rfl
      · simp only [State.overrunDrop]
        split <;> rfl

theorem State.queueSame_intakeArrival (s : State) (rx : List RxWord) : s.QueueSame (s.intakeArrival rx) := by
  obtain ⟨ns, issued⟩ := s.delivery_intakeArrival rx
  exact ⟨s.waitList_intakeArrival rx, by rw [issued, DeliveryPort.samples_issueAll]⟩

/-- A parcel that arrives at most reloads its lane's timer (R25, R137). -/
theorem State.AllOk.intakeArrival {s : State} (h : s.AllOk q) (rx : List RxWord) : (s.intakeArrival rx).AllOk q := by
  have queues := s.queueSame_intakeArrival rx
  obtain same | ⟨l, reloaded⟩ := s.intakeArrival_blocks rx
  · exact h.of_lanes queues same.lanes
  · refine h.of_alike queues fun m => ?_
    rw [reloaded.lane]
    by_cases hm : m = l
    · subst hm
      rw [State.lane_modLane_same]
      exact ⟨_, _, _, _, rfl⟩
    · rw [State.lane_modLane_ne s _ hm]
      exact ⟨_, _, _, _, rfl⟩

theorem State.queueSame_returnArrival (s : State) (rx : List RxWord) : s.QueueSame (s.returnArrival rx) := by
  unfold State.returnArrival
  cases returnVerdict rx <;> exact ⟨rfl, rfl⟩

theorem State.queueSame_actOn (s : State) (a : Answer) : s.QueueSame (s.actOn a) := by
  cases a <;> exact ⟨rfl, rfl⟩

theorem DeliveryPort.samples_linkDown (d : DeliveryPort) (receiving : Bool) : (d.linkDown receiving).samples = d.samples := by
  unfold DeliveryPort.linkDown
  dsimp only
  split <;> split <;> rfl

theorem DeliveryPort.samples_start (d : DeliveryPort) : d.start.samples = d.samples := by
  unfold DeliveryPort.start
  split <;> rfl

/-! ### Every effect -/

/-- Hold memory gives every lane in another state than OFF the allocation of its record (R3, R6). -/
theorem HoldMemoryLaw.allotted {s : State} (h : HoldMemoryLaw s) (l : LaneId) : (s.lane l).Allotted := fun on => by
  obtain ⟨_, given⟩ := h.1 l
  rw [given, if_neg on]

theorem Effect.allOk {s t : State} (effect : Effect s t) (memory : HoldMemoryLaw s) (intake : IntakeParcelLaw s)
    (repair : RepairLaw s) (h : s.AllOk q) : t.AllOk q := by
  cases effect with
  | kept => exact h
  | taken p rest r _ _ lawful =>
    have begun : (s.beginTake rest).AllOk q := h.of_lanes ⟨rfl, rfl⟩ rfl
    exact (lawful.effect.allOk begun).of_lanes ⟨rfl, rfl⟩ rfl
  | intakeArrived rx _ => exact h.intakeArrival rx
  | offered p rest queue =>
    have answered := (h.work p.lane).answer (memory.allotted p.lane) (intake p (by rw [queue]; exact .head _))
    exact (h.of_move (s.answer_move p) answered).of_lanes (State.queueSame_actOn _ _) (State.actOn_blocks _ _).lanes
  | returnArrived rx => exact h.of_lanes (s.queueSame_returnArrival rx) (s.returnArrival_blocks rx).lanes
  | deliveryDown receiving => exact h.of_lanes ⟨rfl, s.delivery.samples_linkDown receiving⟩ rfl
  | started => exact h.of_lanes ⟨rfl, s.delivery.samples_start⟩ rfl
  | ended => exact h.endTransmission
  | starved l running =>
    exact h.of_move (State.expireLane_move (by rw [running]; simp)) ((h.work l).expireLane running)
  | batchExpired => exact h.of_lanes ⟨rfl, s.delivery.samples_commitDue⟩ rfl
  | repairTaken => exact h.takeRepair repair.2.2.1
  | repairCompleted => exact h.completeRepair repair.2.2.2.2.1
  | intakeUp | intakeDown | paceEnded | deliveryUp => exact h.of_lanes ⟨rfl, rfl⟩ rfl

theorem State.AllOk.powerOnKeeping (s : State) (level : Bool) : (s.powerOnKeeping level).AllOk q where
  lanes l := by
    change (State.reset.lane l).Sane
    rw [State.lane_reset]
    exact Lane.sane_cleared _
  waits := by
    refine ⟨List.nodup_nil, fun some => absurd rfl some, fun l => ?_⟩
    change l ∈ [] ↔ (State.reset.lane l).hasPart = true
    rw [State.lane_reset]
    exact ⟨fun listed => by contradiction, fun part => by contradiction⟩
  bound := Nat.zero_le _
  parcels _ l := by
    change LaneParcelLaw (State.reset.lane l)
    rw [State.lane_reset]
    exact ⟨by simp [Lane.powerOn, Lane.cleared], by simp [Lane.powerOn, Lane.cleared], rfl⟩
  queue _ p hp := by contradiction

theorem StepEffect.allOk {s t : State} (effect : StepEffect s t) (memory : HoldMemoryLaw s) (intake : IntakeParcelLaw s)
    (repair : RepairLaw s) (h : s.AllOk q) : t.AllOk q := by
  obtain _ | level | effect := effect
  · unfold State.tick
    split
    · exact h
    · refine h.of_alike ⟨rfl, rfl⟩ fun m => ?_
      refine (congrArg (Lane.Alike (s.lane m)) (s.lane_map Lane.tick m)).mpr ?_
      exact ⟨_, _, _, _, rfl⟩
  · exact State.AllOk.powerOnKeeping s level
  obtain level | _ | ⟨_, effect⟩ := effect
  · unfold State.readyChanged
    split <;> exact h.of_lanes ⟨rfl, rfl⟩ rfl
  · exact h
  · exact effect.allOk memory intake repair h

/-- Every step from a part that keeps the laws of the work leaves the laws of the lanes and of the wait list. -/
theorem WorkLaws.step_allOk {s t : State} (laws : WorkLaws s) (h : step s = .next t) (ok : s.AllOk q) : t.AllOk q := by
  obtain ⟨_, memory, intake, _, _, repair, _⟩ := laws
  obtain ⟨p, effect⟩ := step_effect h
  exact effect.allOk memory intake repair (ok.of_lanes ⟨rfl, rfl⟩ rfl)

/-- Settles O56. -/
theorem stepsKeepLanesAtRestEmpty : Obligations.StepsKeepLanesAtRestEmpty := fun _ _ laws h l =>
  ((laws.step_allOk h laws.allOk).lanes l).rest

/-- Settles O57. -/
theorem stepsKeepTheHoldLineLaws : Obligations.StepsKeepTheHoldLineLaws := fun _ _ laws h l => by
  obtain ⟨_, line, runs, assembly⟩ := ((Lane.sane_iff _).1 ((laws.step_allOk h laws.allOk).lanes l)).1
  exact ⟨line, runs, assembly⟩

/-- Settles O60. -/
theorem stepsKeepTheWaitListLaw : Obligations.StepsKeepTheWaitListLaw := fun _ _ laws h => (laws.step_allOk h laws.allOk).waits

end Sys2Proof.Machine
end

section
/-! Every message that the part sends is well formed (R156 to R158, R168, R177). -/

namespace Sys2Proof.Machine

/-- The messages are well formed, and the batch is one that makes a well-formed message when it is due: a commit is pending,
and the batch timer counts, only with entries in it. -/
structure DeliveryPort.Formed (d : DeliveryPort) : Prop where
  messages : ∀ m ∈ d.messages, m.inRange = true
  few : d.batch.length ≤ 8
  pending : d.commitPending = true → d.batch ≠ []
  counting : d.timer.counting = true → d.batch ≠ []

theorem ParcelLaw.formed {s : State} (bounds : QueuesInBounds s) (batch : BatchLaw s) (parcels : ParcelLaw s) :
    s.delivery.Formed := by
  obtain ⟨_, _, _, few, _⟩ := bounds
  obtain ⟨_, pending, counting⟩ := batch
  exact ⟨parcels.2.2.2, few, fun due => (pending due).1, fun counts => (counting.1 counts).1⟩

namespace DeliveryPort.Formed
variable {d : DeliveryPort}

/-- The batch committed is a notice of 1 to 8 entries (R158, R176). -/
theorem commit (h : d.Formed) (some : d.batch ≠ []) : d.commit.Formed := by
  refine ⟨List.forall_mem_append.2 ⟨h.messages, List.forall_mem_singleton.2 ?_⟩, Nat.zero_le _, fun due => ?_, fun counts => ?_⟩
  · exact Bool.and_eq_true_iff.2 ⟨decide_eq_true (List.length_pos_of_ne_nil some), decide_eq_true h.few⟩
  · contradiction
  · contradiction

theorem commitDue (h : d.Formed) (some : d.batch ≠ []) : d.commitDue.Formed := by
  unfold DeliveryPort.commitDue
  split
  · exact h.commit some
  · exact ⟨h.messages, h.few, fun _ => some, fun counts => by contradiction⟩

theorem issue (h : d.Formed) (n : Notice) : (d.issue n).Formed := by
  unfold DeliveryPort.issue
  split
  · rename_i few
    have some : d.batch ++ [n] ≠ [] := by simp
    have joined : (d.join n).Formed := by
      refine ⟨h.messages, ?_, fun _ => some, fun _ => some⟩
      change (d.batch ++ [n]).length ≤ 8
      rw [List.length_append]
      exact few
    split
    · exact joined.commitDue some
    · exact joined
  · exact ⟨h.messages, h.few, h.pending, h.counting⟩

theorem issueAll : ∀ (ns : List Notice) {d : DeliveryPort}, d.Formed → (d.issueAll ns).Formed
  | [], _, h => h
  | n :: ns, _, h => issueAll ns (h.issue n)

theorem endMessage (h : d.Formed) : d.endMessage.Formed := by
  unfold DeliveryPort.endMessage
  split
  · exact ⟨h.messages, h.few, h.pending, h.counting⟩
  · rename_i m rest messages
    have kept := h.messages
    rw [messages, List.forall_mem_cons] at kept
    have left : (DeliveryPort.bump { d with messages := rest, transmission := .none } m.counter).Formed :=
      ⟨kept.2, h.few, h.pending, h.counting⟩
    dsimp only
    split
    · rename_i due
      exact left.commit (h.pending due)
    · exact left

theorem endSample (h : d.Formed) : d.endSample.Formed := by
  unfold DeliveryPort.endSample
  split <;> exact ⟨h.messages, h.few, h.pending, h.counting⟩

theorem linkDown (h : d.Formed) (receiving : Bool) : (d.linkDown receiving).Formed := by
  unfold DeliveryPort.linkDown
  dsimp only
  split <;> split <;> exact ⟨h.messages, h.few, h.pending, h.counting⟩

theorem start (h : d.Formed) : d.start.Formed := by
  unfold DeliveryPort.start
  split <;> exact ⟨h.messages, h.few, h.pending, h.counting⟩

end DeliveryPort.Formed

theorem Work.formed {s t : State} (w : Work s t) : s.delivery.Formed → t.delivery.Formed := by
  induction w with
  | refl | blocks | checker | headWaiting => exact id
  | push => exact fun h => ⟨h.messages, h.few, h.pending, h.counting⟩
  | trans _ _ first second => exact fun h => second (first h)
  | issue s n => exact fun h => h.issue n

theorem LaneMove.formed {l : LaneId} {s t : State} (m : LaneMove l s t) : s.delivery.Formed → t.delivery.Formed := by
  induction m with
  | refl | entry | newRun | gate | units | headWaiting | phase => exact id
  | trans _ _ first second => exact fun h => second (first h)
  | issue s n => exact fun h => h.issue n
  | push s p => exact fun h => ⟨h.messages, h.few, h.pending, h.counting⟩
  | humBegin s p seq => exact (s.humBegin_work l p seq).formed
  | changeState s st _ _ => exact (s.changeState_work l st).formed
  | becomeOff s => exact (s.becomeOff_work l).formed
  | enterRunning s _ => exact (s.enterRunning_work l).formed
  | checkerLoss s seq d => exact (s.checkerLoss_work l seq d).formed
  | checkerParcel s seq ws _ _ => exact (s.checkerParcel_work l seq ws).formed

theorem CommandShape.formed {s t : State} (shape : CommandShape s t) (h : s.delivery.Formed) : t.delivery.Formed := by
  cases shape with
  | work w => exact w.formed h
  | configured =>
    rw [State.wake_eq]
    exact h
  | rampWritten | intakeSet | intakeResumed => exact h
  | deliverySet => exact ⟨h.messages, h.few, h.pending, h.counting⟩
  | flushed held => exact h.commitDue held
  | partReset => exact ⟨h.messages, Nat.zero_le _, fun due => by contradiction, fun counts => by contradiction⟩

theorem State.formed_endTransmission {s : State} (h : s.delivery.Formed) : s.endTransmission.delivery.Formed := by
  unfold State.endTransmission
  split
  · exact h
  · exact h.endMessage
  · obtain ⟨l, moved⟩ := State.waitServed_move { s with delivery := s.delivery.endSample }
    rw [State.endSampleTransmission_eq]
    dsimp only
    split <;> exact moved.formed h.endSample

theorem Effect.formed {s t : State} (effect : Effect s t) (h : s.delivery.Formed) : t.delivery.Formed := by
  cases effect with
  | kept | intakeUp | intakeDown | paceEnded => exact h
  | deliveryUp => exact ⟨h.messages, h.few, h.pending, h.counting⟩
  | taken p rest r _ _ lawful =>
    have begun : (s.beginTake rest).delivery.Formed := ⟨h.messages, h.few, h.pending, h.counting⟩
    obtain ⟨messages, few, pending, counting⟩ := lawful.effect.shape.formed begun
    exact ⟨List.forall_mem_append.2 ⟨messages, List.forall_mem_singleton.2 (decide_eq_true lawful.words)⟩, few, pending, counting⟩
  | intakeArrived rx _ =>
    obtain ⟨ns, issued⟩ := s.delivery_intakeArrival rx
    rw [issued]
    exact DeliveryPort.Formed.issueAll ns h
  | offered p rest _ =>
    have answered := (s.answer_move p).formed h
    cases (s.answer p).1 <;> exact answered
  | returnArrived rx =>
    unfold State.returnArrival
    cases returnVerdict rx <;> exact ⟨h.messages, h.few, h.pending, h.counting⟩
  | deliveryDown receiving => exact h.linkDown receiving
  | started => exact h.start
  | ended => exact State.formed_endTransmission h
  | starved l _ => exact (s.expireLane_work l).formed h
  | batchExpired expired =>
    unfold Timer.expired at expired
    rw [Bool.and_eq_true] at expired
    exact h.commitDue (h.counting expired.1)
  | repairTaken => exact s.takeRepair_work.formed h
  | repairCompleted => exact s.completeRepair_work.formed h

theorem StepEffect.formed {s t : State} (effect : StepEffect s t) (h : s.delivery.Formed) : t.delivery.Formed := by
  obtain _ | level | effect := effect
  · unfold State.tick
    split
    · exact h
    · refine ⟨h.messages, h.few, h.pending, fun counts => h.counting ?_⟩
      refine Eq.trans ?_ counts
      unfold Timer.tick
      dsimp only
      split <;> rfl
  · exact ⟨by simp [State.powerOnKeeping, State.reset, DeliveryPort.powerOn], Nat.zero_le _, fun due => by contradiction,
      fun counts => by contradiction⟩
  obtain level | _ | ⟨_, effect⟩ := effect
  · unfold State.readyChanged
    split <;> exact ⟨h.messages, h.few, h.pending, h.counting⟩
  · exact h
  · exact effect.formed h

/-- Settles O55: the parcels of the lanes and of the sample queue are carried by the same work as the laws of the lanes, and a
message is a reply of at most 256 words or a batch that was due with entries in it. -/
theorem stepsKeepTheParcelLaw : Obligations.StepsKeepTheParcelLaw := by
  intro s t laws batch parcels h
  have bounds := laws.1
  have ok := laws.step_allOk h (ParcelLaw.allOk laws parcels)
  obtain ⟨p, effect⟩ := step_effect h
  have formed := effect.formed (ParcelLaw.formed bounds batch parcels)
  exact ⟨((stepsKeepPortTimerAndGateLaws s t h).2.1 parcels.1), ok.parcels trivial, ok.queue trivial, formed.messages⟩

end Sys2Proof.Machine
end

section
/-! Starvation and repair (R26, R82 to R84): what departure leaves of the repair unit, and the take and the completion of a
repair. -/

namespace Sys2Proof.Machine

/-! ### Departure leaves the repair unit -/

/-- A run list after releases and overtakings (R79, R90): records have left it, and OPEN ones may have become UNREPAIRED
OVERTAKEN. -/
def RunsAfter (rs rs' : List RunRecord) : Prop :=
  ∃ f : RunRecord → RunRecord, rs'.Sublist (rs.map f)
    ∧ ∀ r, (f r).number = r.number
      ∧ ((f r).state = r.state ∨ r.state = .opened ∧ (f r).state = .unrepaired .overtaken)

theorem RunsAfter.of_sublist {rs rs' : List RunRecord} (h : rs'.Sublist rs) : RunsAfter rs rs' :=
  ⟨id, by rw [List.map_id]; exact h, fun _ => ⟨rfl, .inl rfl⟩⟩

theorem RunsAfter.trans {rs rs' rs'' : List RunRecord} (h : RunsAfter rs rs') (k : RunsAfter rs' rs'') :
    RunsAfter rs rs'' := by
  obtain ⟨f, first, hf⟩ := h
  obtain ⟨g, second, hg⟩ := k
  refine ⟨g ∘ f, ?_, fun r => ⟨(hg (f r)).1.trans (hf r).1, ?_⟩⟩
  · rw [← List.map_map]
    exact second.trans (first.map g)
  · rcases (hg (f r)).2 with same | ⟨opened, overtaken⟩
    · rcases (hf r).2 with kept | ⟨was, now⟩
      · exact .inl (same.trans kept)
      · exact .inr ⟨was, same.trans now⟩
    · rcases (hf r).2 with kept | ⟨was, now⟩
      · exact .inr ⟨kept.symm.trans opened, overtaken⟩
      · rw [now] at opened
        contradiction

/-- What holds of every record of a number still holds, if overtaking an OPEN record does not break it. -/
theorem RunsAfter.forall_state {rs rs' : List RunRecord} (h : RunsAfter rs rs') {n : Nat} {P : RunState → Prop}
    (closed : ∀ st, P st → st = .opened → P (.unrepaired .overtaken)) (all : ∀ r ∈ rs, r.number = n → P r.state) :
    ∀ r ∈ rs', r.number = n → P r.state := by
  obtain ⟨f, sub, hf⟩ := h
  intro r hr number
  obtain ⟨q, hq, rfl⟩ := List.mem_map.1 (sub.subset hr)
  have own := all q hq ((hf q).1.symm.trans number)
  rcases (hf q).2 with same | ⟨opened, overtaken⟩
  · rw [same]
    exact own
  · rw [overtaken]
    exact closed _ own opened

/-- The repair unit is as it was, records of lane l have at most been overtaken or released, and the head of the intake
queue does not begin to wait. -/
structure State.RepairLeft (l : LaneId) (s t : State) : Prop where
  repair : t.repair = s.repair
  runs : RunsAfter (s.lane l).det.runs (t.lane l).det.runs
  head : s.intake.headWaiting = false → t.intake.headWaiting = false

section
variable {l : LaneId} {s t u : State}

theorem State.RepairLeft.of_runs (repair : t.repair = s.repair) (runs : (t.lane l).det.runs = (s.lane l).det.runs)
    (head : s.intake.headWaiting = false → t.intake.headWaiting = false := by exact id) : s.RepairLeft l t :=
  ⟨repair, .of_sublist (runs ▸ .refl _), head⟩

theorem State.RepairLeft.refl (s : State) : s.RepairLeft l s := .of_runs rfl rfl

theorem State.RepairLeft.trans (h : s.RepairLeft l t) (k : t.RepairLeft l u) : s.RepairLeft l u :=
  ⟨k.repair.trans h.repair, h.runs.trans k.runs, k.head ∘ h.head⟩

theorem State.RepairLeft.unrepairing (h : s.RepairLeft l t) (n : Nat)
    (none : ∀ r ∈ (s.lane l).det.runs, r.number = n → r.state ≠ .repairing) :
    ∀ r ∈ (t.lane l).det.runs, r.number = n → r.state ≠ .repairing :=
  h.runs.forall_state (P := fun st => st ≠ .repairing) (fun _ _ _ => by simp) none

theorem State.RepairLeft.foldl {α : Type} (f : State → α → State) (step : ∀ (u : State) (a : α), u.RepairLeft l (f u a)) :
    ∀ (xs : List α) (s : State), s.RepairLeft l (xs.foldl f s)
  | [], _ => .refl _
  | a :: xs, _ => (step _ a).trans (State.RepairLeft.foldl f step xs _)

theorem State.RepairLeft.modLane (s : State) (f : Lane → Lane) (det : ∀ x : Lane, (f x).det = x.det := by intro _; rfl) :
    s.RepairLeft l (s.modLane l f) := .of_runs rfl (by rw [State.lane_modLane_same, det])

theorem State.RepairLeft.modDet (s : State) (f : Detector → Detector)
    (runs : RunsAfter (s.lane l).det.runs (f (s.lane l).det).runs) : s.RepairLeft l (s.modDet l f) :=
  ⟨rfl, by rw [State.modDet_eq_withLane, State.lane_withLane_same]; exact runs, id⟩

theorem IntakePort.headWaiting_offeredAgain {i : IntakePort} (m : LaneId) (free : i.headWaiting = false) :
    (i.offeredAgain m).headWaiting = false := by
  unfold IntakePort.offeredAgain
  exact Bool.and_eq_false_imp.2 fun waits => by rw [free] at waits; contradiction

theorem State.headWaiting_wake (s : State) (m : LaneId) (free : s.intake.headWaiting = false) :
    (s.wake m).intake.headWaiting = false := by
  rw [State.wake_offeredAgain]
  exact IntakePort.headWaiting_offeredAgain m free

end

section
variable (l : LaneId) (s : State)

theorem State.repairLeft_reportRelease (r : RunRecord) : s.RepairLeft l (s.reportRelease l r) := by
  have counted : ∀ c, s.RepairLeft l (s.count l c 1) := fun c => .modLane s _
  unfold State.reportRelease
  split
  · exact counted _
  · exact (counted _).trans (.of_runs rfl rfl)
  all_goals exact .refl s

theorem State.repairLeft_releaseRuns : s.RepairLeft l (s.releaseRuns l) := by
  unfold State.releaseRuns
  dsimp only
  split
  · exact .refl s
  · have dropped : s.RepairLeft l (s.modDet l fun d =>
        { d with runs := d.runs.filter fun r => !r.released (s.lane l).headPosition }) :=
      .modDet s _ (.of_sublist List.filter_sublist)
    exact (dropped.trans (u := { s.modDet l _ with fullNoticed := _ }) (.of_runs rfl rfl)).trans
      (.foldl _ (fun u r => u.repairLeft_reportRelease l r) _ _)

theorem State.repairLeft_placePart : s.RepairLeft l (s.placePart l) := by
  have placed : ∀ p a, s.RepairLeft l (((s.pushSample p).setAssembly l a).wake l) := fun p a =>
    have pushed : s.RepairLeft l (s.pushSample p) := .of_runs rfl rfl
    (pushed.trans (.modLane _ fun x => { x with assembly := a })).trans (.of_runs (State.repair_wake _ l)
      (by rw [State.lane_wake]; rfl) (State.headWaiting_wake _ l))
  unfold State.placePart
  split
  · exact placed _ _
  · exact placed _ _
  all_goals exact .refl s

theorem State.repairLeft_joinWait : s.RepairLeft l (s.joinWait l) := by
  rw [State.joinWait_eq]
  exact .of_runs rfl rfl

theorem State.repairLeft_placeParts : ∀ (n : Nat) (l : LaneId) (s : State), s.RepairLeft l (State.placeParts n l s)
  | 0, _, _ => .refl _
  | n + 1, l, s => by
    unfold State.placeParts
    split
    · exact (s.repairLeft_placePart l).trans (State.repairLeft_placeParts n l _)
    · exact .refl s

theorem State.repairLeft_completeAssembly (b : AssemblyBody) : s.RepairLeft l (s.completeAssembly l b) := by
  have gated : s.RepairLeft l (s.gateStep l b) := by
    rw [State.gateStep_eq]
    generalize noticed : (if (s.lane l).config.hissEnable = true ∧ (s.lane l).config.gateNotices = true then _ else s) = u
    have same : u.repair = s.repair ∧ u.intake = s.intake := by
      rw [← noticed]
      split
      · split
        · exact ⟨rfl, rfl⟩
        · split <;> exact ⟨rfl, rfl⟩
      · exact ⟨rfl, rfl⟩
    exact .of_runs same.1 (by rw [State.lane_withLane_same]) fun free => (congrArg IntakePort.headWaiting same.2).trans free
  unfold State.completeAssembly State.placeAssembly
  dsimp only
  generalize s.gateStep l b = u at gated
  generalize done : u.modLane l _ = v
  have completed : u.RepairLeft l v := done ▸ .modLane u _
  have placed := State.repairLeft_placeParts (v.lane l).assembly.parts l v
  split
  · exact (gated.trans completed).trans placed
  · exact ((gated.trans completed).trans placed).trans (State.repairLeft_joinWait l _)

theorem State.repairLeft_collect (p : HeldParcel) (v : Sample) (t : Treatment) (f : Bool) :
    s.RepairLeft l (s.collect l p v t f) := by
  have taken : s.RepairLeft l (s.takeWord l p.route) := by
    rw [State.takeWord_eq]
    exact .of_runs rfl rfl
  have built : ∀ (u : State) (a : Assembly), u.RepairLeft l (u.setAssembly l a) := fun u a => .modLane u _
  unfold State.collect
  dsimp only
  split
  · exact (taken.trans (built _ _)).trans (State.repairLeft_completeAssembly l _ _)
  · exact taken.trans (built _ _)

/-- Overtaking makes an OPEN run UNREPAIRED OVERTAKEN, and leaves the others (R79). -/
theorem Lane.runs_overtake (x : Lane) (pos : Nat) : RunsAfter x.det.runs (x.overtake pos).det.runs := by
  rw [Lane.overtake_eq]
  dsimp only
  split
  · exact .of_sublist (.refl _)
  · split
    · refine ⟨_, .refl _, fun q => ?_⟩
      split
      · refine ⟨rfl, ?_⟩
        dsimp only
        split
        · rename_i opened
          exact .inr ⟨opened, rfl⟩
        · exact .inl rfl
      · exact ⟨rfl, .inl rfl⟩
    · exact .of_sublist (.refl _)

theorem State.repairLeft_departOne : s.RepairLeft l (s.departOne l) := by
  unfold State.departOne
  split
  · exact .refl s
  · rename_i p rest _
    have overtaken : s.RepairLeft l (s.modLane l fun x => x.overtake p.headPosition) :=
      ⟨rfl, by rw [State.lane_modLane_same]; exact Lane.runs_overtake _ _, id⟩
    have left : ∀ u : State, u.RepairLeft l ((u.modLane l fun x => { x with held := heldAfter p rest }).wake l) := fun u =>
      .of_runs (by rw [State.repair_wake]; rfl) (by rw [State.lane_wake, State.lane_modLane_same])
        (State.headWaiting_wake (u.modLane l fun x => { x with held := heldAfter p rest }) l)
    exact ((overtaken.trans (left _)).trans (State.repairLeft_collect l _ _ _ _ _)).trans (State.repairLeft_releaseRuns l _)

theorem State.repairLeft_departUpTo : ∀ (n : Nat) (l : LaneId) (s : State), s.RepairLeft l (State.departUpTo n l s)
  | 0, _, _ => .refl _
  | n + 1, l, s => by
    unfold State.departUpTo
    split
    · exact (s.repairLeft_departOne l).trans (State.repairLeft_departUpTo n l _)
    · exact .refl s

theorem State.repairLeft_placeTrailings : ∀ (n : Nat) (l : LaneId) (s : State),
    s.RepairLeft l (State.placeTrailings n l s)
  | 0, _, _ => .refl _
  | n + 1, l, s => by
    have placed : s.RepairLeft l (s.placeTrailing l) := by
      cases marks : (s.lane l).marks with
      | nil =>
        unfold State.placeTrailing
        rw [marks]
        exact .refl s
      | cons m ms =>
        rw [State.placeTrailing_eq marks]
        obtain ⟨c, lane⟩ := s.trailingPlaced_after l m ms
        have same : (s.trailingPlaced l m ms).repair = s.repair ∧ (s.trailingPlaced l m ms).intake = s.intake := by
          unfold State.trailingPlaced
          dsimp only
          split <;> exact ⟨rfl, rfl⟩
        exact .of_runs same.1 (by rw [lane]) fun free => (congrArg IntakePort.headWaiting same.2).trans free
    unfold State.placeTrailings
    split
    · exact placed.trans (State.repairLeft_placeTrailings n l _)
    · exact .refl s

theorem State.repairLeft_placeTrailingMarks : s.RepairLeft l (s.placeTrailingMarks l) := by
  unfold State.placeTrailingMarks
  dsimp only
  split
  · exact (State.repairLeft_placeTrailings _ l s).trans (State.repairLeft_joinWait l _)
  · exact State.repairLeft_placeTrailings _ l s

theorem State.repair_leftBy (old : Option ProfileId) : (s.leftBy l old).repair = s.repair := by
  have left : (s.userLeft old).repair = s.repair := by
    unfold State.userLeft State.swapIfUnused
    split
    · split <;> rfl
    · rfl
  rw [← State.leftBy_eq, ← left, ((s.userLeft old).checkerLoss_only l _ _).1]

theorem State.intake_leftBy (u : State) (l : LaneId) (old : Option ProfileId) : (u.leftBy l old).intake = u.intake := by
  have left : (u.userLeft old).intake = u.intake := by
    unfold State.userLeft State.swapIfUnused
    split
    · split <;> rfl
    · rfl
  rw [← State.leftBy_eq, ← left, ((u.userLeft old).checkerLoss_only l _ _).1]

/-- The drain and stall test leaves the repair unit, and the records of a lane that does not become OFF (R10, R26). -/
theorem State.repairLeft_settle : s.RepairLeft l (s.settle l) := by
  by_cases done : (s.lane l).workEmpty = true ∧ (s.lane l).state.isFlushing = true
  · obtain ⟨empty, flushing⟩ := done
    obtain ⟨_, _, _, _, runs⟩ := s.lane_settle l empty flushing
    have same : (s.settle l).repair = s.repair ∧ (s.settle l).intake = s.intake.offeredAgain l := by
      cases st : (s.lane l).state with
      | off | armed | stalled => simp [st, LaneState.isFlushing] at flushing
      | running p =>
        have st : (s.lane l).state = .running true := by
          rw [st] at flushing ⊢
          exact congrArg LaneState.running flushing
        rw [State.settle_stalled empty st, State.repair_issue, State.repair_leftBy, State.intake_issue, State.intake_leftBy]
        exact ⟨rfl, rfl⟩
      | draining t =>
        cases t with
        | off => rw [State.settle_off empty st]; exact ⟨rfl, rfl⟩
        | armed => rw [State.settle_armed empty st]; exact ⟨rfl, rfl⟩
    exact .of_runs same.1 runs fun free =>
      (congrArg IntakePort.headWaiting same.2).trans (IntakePort.headWaiting_offeredAgain l free)
  · rw [State.settle_none done]
    exact .refl s

/-- Departure makes no run REPAIRING and leaves the repair unit as it was (R78). -/
theorem State.repairLeft_depart : s.RepairLeft l (s.depart l) :=
  ((State.repairLeft_departUpTo _ l s).trans (State.repairLeft_placeTrailingMarks l _)).trans (State.repairLeft_settle l _)

end

/-! ### The repaired values -/

/-- The k-th of the n samples of a run lies on the line between its anchors, at or between them (R83). -/
theorem interpolate_toInt (lv rv : Sample) {n k : Nat} (h : k ≤ n) :
    (interpolate lv rv n k).toInt = lv.toInt + Int.tdiv ((rv.toInt - lv.toInt) * (k : Int)) ((n : Int) + 1)
      ∧ min lv.toInt rv.toInt ≤ (interpolate lv rv n k).toInt ∧ (interpolate lv rv n k).toInt ≤ max lv.toInt rv.toInt := by
  obtain ⟨lowL, highL⟩ := sample_range lv
  obtain ⟨lowR, highR⟩ := sample_range rv
  obtain ⟨up, down⟩ := tdiv_fraction (rv.toInt - lv.toInt) (Nat.le_succ_of_le h) (Nat.succ_pos n)
  rw [Nat.succ_eq_add_one, Nat.cast_add, Nat.cast_one] at up down
  have value : (interpolate lv rv n k).toInt = lv.toInt + Int.tdiv ((rv.toInt - lv.toInt) * (k : Int)) ((n : Int) + 1) := by
    unfold interpolate truncDiv
    refine toInt_ofInt_sample ?_ ?_ <;> omega
  rw [value]
  omega

/-- The rewritten samples of a held parcel, each by its position (R83). -/
theorem repairSamples_eq (r : RunRecord) (lv rv : Sample) : ∀ (x : Nat) (vs : List Sample),
    repairSamples r lv rv x vs = vs.mapIdx fun i v =>
      if r.first ≤ x + i ∧ x + i ≤ r.last then interpolate lv rv r.length (x + i - r.first + 1) else v
  | _, [] => rfl
  | x, v :: vs => by
    unfold repairSamples
    rw [repairSamples_eq r lv rv (x + 1) vs, List.mapIdx_cons]
    refine congrArg₂ List.cons ?_ ?_
    · simp only [RunRecord.covers, Bool.and_eq_true, decide_eq_true_eq]
      rfl
    · simp only [Nat.add_assoc, Nat.add_comm 1]

theorem HeldParcel.repair_eq (p : HeldParcel) (r : RunRecord) (lv rv : Sample) :
    p.repair r lv rv =
      if p.route = .restore then
        { p with
          samples := p.samples.mapIdx fun i v =>
            if r.first ≤ p.firstPosition + p.departed + i ∧ p.firstPosition + p.departed + i ≤ r.last then
              BitVec.ofInt 16 (lv.toInt
                + Int.tdiv ((rv.toInt - lv.toInt) * ((p.firstPosition + p.departed + i - r.first + 1 : Nat) : Int))
                    ((r.last - r.first + 2 : Nat) : Int))
            else v }
      else p := by
  have length : ((r.length : Int) + 1) = ((r.last - r.first + 2 : Nat) : Int) := by
    unfold RunRecord.length
    omega
  unfold HeldParcel.repair
  rw [repairSamples_eq]
  simp only [interpolate, truncDiv, length]
  rfl

end Sys2Proof.Machine
end

section
/-! The starvation expiry, and the take and completion of a repair, in the words of the statements (R26, R82 to R84). -/

namespace Sys2Proof.Machine

/-! ### Departure with nothing to do -/

/-- With the head sample held back, no trailing mark and the lane not to be settled, departure changes nothing (R78). -/
theorem State.depart_stay {s : State} {l : LaneId} (stop : ¬(s.lane l).canDepart = true) (untrailing : ¬(s.lane l).trailing = true)
    (busy : ¬((s.lane l).workEmpty = true ∧ (s.lane l).state.isFlushing = true)) : s.depart l = s := by
  rw [State.depart_stop stop, State.placeTrailingMarks_none untrailing, State.settle_none busy]

/-- A lane whose COMPLETE assembly waits stays as it is (R75, R104). -/
theorem State.depart_complete {s : State} {l : LaneId} {b : AssemblyBody} {ms : List MarkEntry} {f : SampleFlags}
    (complete : (s.lane l).assembly = .complete b ms f) : s.depart l = s := by
  refine State.depart_stay (fun can => ?_) (fun trails => ?_) fun ⟨empty, _⟩ => ?_
  · obtain ⟨_, _, _, _, _, free⟩ := (Lane.canDepart_iff _).1 can
    exact free b ms f complete
  · have empty := ((Lane.trailing_iff _).1 trails).2.2.1
    rw [complete] at empty
    contradiction
  · have empty := ((Lane.workEmpty_iff _).1 empty).2.1
    rw [complete] at empty
    contradiction

/-- A lane that does not flush keeps a head sample that is not due (R74, R75). -/
theorem State.depart_early {s : State} {l : LaneId} {p : HeldParcel} {ps : List HeldParcel} (held : (s.lane l).held = p :: ps)
    (still : (s.lane l).state.isFlushing = false)
    (early : (s.lane l).nextPosition - 1 - (p.firstPosition + p.departed) < (s.lane l).config.lookahead) : s.depart l = s := by
  have flushless : ¬(s.lane l).state.isFlushing = true := by rw [still]; exact Bool.false_ne_true
  refine State.depart_stay (fun can => ?_) (fun trails => flushless ((Lane.trailing_iff _).1 trails).1) fun done => flushless done.2
  obtain ⟨q, qs, held', due, _⟩ := (Lane.canDepart_iff _).1 can
  rw [held] at held'
  cases held'
  exact due.elim flushless fun late => Nat.not_le_of_lt early late

/-! ### The take of a repair -/

theorem exec_repairTake {s : State} (running : s.resetLine = false) : exec .repairTake s = .next s.takeRepair :=
  whileRunning_of_deasserted running State.takeRepair

theorem State.takeRepair_head {s : State} {e : RepairEntry} {queue : List RepairEntry} (idle : s.repair.inProgress = none)
    (head : s.repair.queue = e :: queue) :
    s.takeRepair =
      { s with
        repair := { queue := queue, inProgress := some e }
        lanes := s.lanes.set e.lane
          { s.lane e.lane with
            det := (s.lane e.lane).det.modRun e.run fun r => { r with state := .repairing } } } := by
  unfold State.takeRepair
  rw [idle, head]
  rfl

theorem State.takeRepair_none {s : State} (none : s.repair.inProgress ≠ none ∨ s.repair.queue = []) : s.takeRepair = s := by
  unfold State.takeRepair
  split
  · rename_i idle queue
    rcases none with busy | empty
    · exact absurd idle busy
    · rw [queue] at empty
      contradiction
  · rfl
  · rfl

/-! ### The completion of a repair -/

theorem exec_repairCompletion {s : State} (running : s.resetLine = false) :
    exec .repairCompletion s = .next s.completeRepair := whileRunning_of_deasserted running State.completeRepair

/-- The part with the repair in progress carried out and the unit IDLE (R84, steps 1 to 3). -/
def State.repaired (s : State) (e : RepairEntry) : State :=
  { s with
    repair := { queue := s.repair.queue, inProgress := none }
    intake := s.intake.offeredAgain e.lane
    lanes := s.lanes.set e.lane ((s.lane e.lane).repairRun e.run) }

theorem State.completeRepair_eq {s : State} {e : RepairEntry} (busy : s.repair.inProgress = some e) :
    s.completeRepair = (s.repaired e).depart e.lane := by
  unfold State.completeRepair
  rw [busy]
  dsimp only
  rw [State.wake_offeredAgain]
  rfl

theorem State.lane_repaired (s : State) (e : RepairEntry) :
    (s.repaired e).lane e.lane = (s.lane e.lane).repairRun e.run := State.lane_of_set (s := s) rfl

theorem State.repaired_laneWork {s : State} {e : RepairEntry} (busy : s.repair.inProgress = some e) :
    LaneWork e.lane s (s.repaired e) := by
  have idle : LaneWork e.lane s { s with repair := { queue := s.repair.queue, inProgress := none } } :=
    .repair s _ rfl fun d other => by
      rw [busy]
      refine ⟨fun none => by contradiction, fun same => absurd (congrArg RepairEntry.lane (Option.some.inj same)).symm other⟩
  have rewritten := (idle.trans (State.repairRun_laneWork _ e.lane e.run)).trans (.wake _ e.lane)
  rw [State.wake_offeredAgain] at rewritten
  exact rewritten

/-- The repair of a run by the record that is found under its number (R83, R84). -/
theorem Lane.repairRun_found {x : Lane} {n : Nat} {r : RunRecord}
    (found : (x.det.runs.find? fun q => decide (q.number = n)) = some r) :
    x.repairRun n =
      { x with
        held := x.held.map fun p => p.repair r (r.leftAnchor.getD 0) (r.rightAnchor.getD 0)
        det := x.det.modRun n fun r => { r with state := .repaired, growing := false } } := by
  unfold Lane.repairRun
  rw [found]

/-- With its repair carried out the run is no longer REPAIRING (R84). -/
theorem Lane.repairRun_unrepairing (x : Lane) (n : Nat) :
    ∀ r ∈ (x.repairRun n).det.runs, r.number = n → r.state ≠ .repairing := by
  unfold Lane.repairRun
  split
  · refine List.forall_mem_map.2 fun q _ => ?_
    split
    · simp
    · rename_i other
      exact fun number => absurd number other
  · rename_i none
    intro r hr number
    have other := List.find?_eq_none.1 none r hr
    exact absurd number (by simpa using other)

/-- Settles O37: the take and the completion are one record each, what follows the completion is departure, and the repaired
values are parts of the distance between the anchors. -/
theorem repairsAreTakenAndCompleted : Obligations.RepairsAreTakenAndCompleted := by
  refine ⟨fun s e running => ⟨fun queue idle head => ?_, fun busy => ⟨?_, ?_⟩, fun none => ?_⟩, fun lv rv n k _ most =>
    interpolate_toInt lv rv most⟩
  · rw [exec_repairTake running, State.takeRepair_head idle head]
    rfl
  · have left := State.repairLeft_depart e.lane (s.repaired e)
    have unrepairing := left.unrepairing e.run
    have repair := left.repair
    obtain ⟨t, work, departs⟩ := (s.repaired e).depart_laneWork e.lane
    obtain ⟨kept, others, profiles⟩ := ((State.repaired_laneWork busy).trans work).settleKept
    rw [← departs, ← State.completeRepair_eq busy] at kept others profiles
    rw [← State.completeRepair_eq busy] at repair unrepairing
    refine ⟨_, exec_repairCompletion running, repair, unrepairing ?_, others, profiles, kept⟩
    rw [State.lane_repaired]
    exact (s.lane e.lane).repairRun_unrepairing e.run
  · rintro r lv rv u found left right _ isU
    have rewritten : u = s.repaired e := by
      rw [isU]
      unfold State.repaired
      rw [Lane.repairRun_found found, left, right]
      simp only [Option.getD_some, HeldParcel.repair_eq]
      rfl
    have lane := (s.lane_repaired e).trans (Lane.repairRun_found found)
    rw [← rewritten] at lane
    have completes : exec .repairCompletion s = .next (u.depart e.lane) := by
      rw [exec_repairCompletion running, State.completeRepair_eq busy, rewritten]
    have stays (still : u.depart e.lane = u) : exec .repairCompletion s = .next u :=
      completes.trans (congrArg Host.Outcome.next still)
    refine ⟨completes, fun b ms f complete => stays (State.depart_complete (b := b) (ms := ms) (f := f) ?_),
      fun p ps held still early => stays ?_⟩
    · rw [lane]
      exact complete
    · have shape := p.sameShape_repair r (r.leftAnchor.getD 0) (r.rightAnchor.getD 0)
      obtain ⟨vs, same, _⟩ := shape
      have head := congrArg Lane.held lane
      dsimp only at head
      rw [held, List.map_cons, same] at head
      refine State.depart_early head ?_ ?_
      · rw [lane]
        exact still
      · rw [lane]
        exact early
  · rw [exec_repairTake running, State.takeRepair_none none]

end Sys2Proof.Machine
end

section
/-! Flushes, drains and stalls in the words of the statements (R10, R26, R38, R88, R128). -/

namespace Sys2Proof.Machine

/-! ### The flush of a lane -/

/-- A flush cuts the runs, and the lane carries the rest through to its drain or stall test (R57, R88). -/
theorem State.flush_carried (s : State) (l : LaneId) :
    ∃ v, LaneWork l s v ∧ s.flush l = v.settle l
      ∧ Lane.Carried { s.lane l with det := (s.lane l).det.cut } (v.lane l) := by
  have cut : (s.modDet l Detector.cut).lane l = { s.lane l with det := (s.lane l).det.cut } := State.lane_modLane_same s l _
  have started : LaneWork l s (s.modDet l Detector.cut) := .modDet s _
  rw [← cut]
  unfold State.flush
  dsimp only
  generalize s.modDet l Detector.cut = s1 at started
  have departed := State.departUpTo_laneWork (s1.lane l).occupancy l s1
  have carried := State.carried_departUpTo (s1.lane l).occupancy l s1
  generalize State.departUpTo (s1.lane l).occupancy l s1 = s2 at departed carried
  exact ⟨_, ((started.trans departed).trans (s2.releaseRuns_laneWork l)).trans ((s2.releaseRuns l).placeTrailingMarks_laneWork l),
    rfl, (carried.trans (s2.lineKept_releaseRuns l).1).trans ((s2.releaseRuns l).lineKept_placeTrailingMarks l).1⟩

/-- The drain and stall test is within the lane's share of the units (R10, R26). -/
theorem State.settle_share (s : State) (l : LaneId) : LaneShare l s (s.settle l) := by
  have same : LaneShare l s s := (LaneWork.refl s).share
  unfold State.settle
  dsimp only
  split
  · split
    · rename_i st
      unfold State.becomeOff
      rw [State.changeState_staying _ _ _ (.inl (by rw [st]; rfl))]
      exact (((same.trans (.modLane _ _ _)).trans (.wake _ _)).trans (.modLane _ _ _)).trans (.issue _ _)
    · rename_i st
      rw [State.changeState_staying _ _ _ (.inl (by rw [st]; rfl))]
      exact ((same.trans (.modLane _ _ _)).trans (.wake _ _)).trans (.issue _ _)
    · rename_i st
      rw [State.changeState_leaving _ _ _ (by rw [st]; rfl) rfl]
      exact ((((same.trans (.modLane _ _ _)).trans (.wake _ _)).trans (State.leftBy_share _ _ _ _)).trans
        (.modLane _ _ fun ln => ln.bump .stalls 1)).trans (.issue _ _)
    all_goals exact same
  · exact same

/-! ### What the test makes of the lane -/

/-- A stall pending lane with no held work becomes STALLED, and its stall is counted (R26). -/
theorem State.lane_settle_stalled {v : State} {l : LaneId} (st : (v.lane l).state = .running true)
    (empty : (v.lane l).workEmpty = true) :
    ∃ a, (v.settle l).lane l = { ((v.lane l).counted .stalls 1).inState .stalled with hum := a } := by
  rw [State.settle_stalled empty st, State.lane_issue]
  obtain ⟨a, same⟩ := State.humOnly_leftBy
    { v with
      lanes := v.lanes.set l (((v.lane l).counted .stalls 1).inState .stalled)
      intake := v.intake.offeredAgain l } l (v.lane l).hum.profile l
  exact ⟨a, same.trans (congrArg (fun x : Lane => { x with hum := a }) (State.lane_of_set (s := v) rfl))⟩

/-! ### The starvation expiry -/

/-- A RUNNING lane with a stall pending has its stall test: it stays so, or it is STALLED and leaves RUNNING (R26, R38). -/
theorem LaneShare.stallKept {l : LaneId} {s v : State} (h : LaneShare l s v) (others : ∀ m, m ≠ l → v.lane m = s.lane m)
    (profiles : v.profiles = s.profiles) (checker : v.checker = s.checker) (was : (s.lane l).state.isRunning = true)
    (st : (v.lane l).state = .running true) (profile : (v.lane l).hum.profile = (s.lane l).hum.profile) :
    WorkKept s (v.settle l) l ∧ OtherLanesKept s (v.settle l) l ∧ ProfilesIfLeft s (v.settle l) l := by
  have share := h.trans (v.settle_share l)
  by_cases empty : (v.lane l).workEmpty = true
  · obtain ⟨a, lane⟩ := State.lane_settle_stalled st empty
    have now : ((v.settle l).lane l).state.isRunning = false := by
      rw [lane]
      rfl
    rw [State.settle_stalled empty st, profile] at share now ⊢
    refine share.keptLeaving
      (u := { v with
        lanes := v.lanes.set l (((v.lane l).counted .stalls 1).inState .stalled)
        intake := v.intake.offeredAgain l })
      (fun m hm => (State.lane_modLane_ne v (fun _ => _) hm).trans (others m hm)) profiles checker was ?_
      (fun m _ => State.lane_issue _ _ m) now rfl rfl
    rw [State.lane_of_set (s := v) rfl]
    rfl
  · have stays : v.settle l = v := State.settle_none fun done => empty done.1
    rw [stays] at share ⊢
    exact share.keptStaying others profiles checker (.inr (by rw [st]; rfl))

theorem exec_starvationExpiry {s : State} {l : LaneId} (running : s.resetLine = false) (st : (s.lane l).state = .running false)
    (timer : (s.lane l).timer = { remaining := 0, counting := true }) :
    exec (.starvationExpiry l) s = .next (s.expireLane l) := by
  refine (whileRunning_of_deasserted running _).trans (congrArg Host.Outcome.next (if_pos ⟨st, ?_⟩))
  rw [timer]
  rfl

theorem satBump_zero {w : Nat} (c : BitVec w) : satBump c 0 = c := by
  unfold satBump
  rw [Nat.add_zero, if_pos c.isLt]
  exact BitVec.add_zero c

theorem Detector.cut_none {d : Detector} (runs : d.runs = []) :
    d.cut =
      { d with
        calmCount := 0, calmStart := none, forcedRemainder := 0
        forcedCauses := { detected := false, splice := false, junction := false, conceal := false } } := by
  unfold Detector.cut
  rw [runs]
  rfl

/-- A flush on a lane with nothing held and no run only forgets what the detector had begun (R57, R88). -/
theorem State.flush_empty {s : State} {l : LaneId} (held : (s.lane l).held = []) (runs : (s.lane l).det.runs = [])
    (marks : (s.lane l).marks = []) : s.flush l = (s.modDet l Detector.cut).settle l := by
  have cut : (s.modDet l Detector.cut).lane l = { s.lane l with det := (s.lane l).det.cut } := State.lane_modLane_same s l _
  have none : ((s.modDet l Detector.cut).lane l).occupancy = 0 := by
    rw [cut, Lane.occupancy, held]
    rfl
  have unreleased : (s.modDet l Detector.cut).releaseRuns l = s.modDet l Detector.cut := by
    refine State.releaseRuns_none fun r hr => ?_
    rw [cut] at hr
    change r ∈ (s.lane l).det.runs.map RunRecord.cut at hr
    rw [runs] at hr
    contradiction
  have untrailing : (s.modDet l Detector.cut).placeTrailingMarks l = s.modDet l Detector.cut := by
    refine State.placeTrailingMarks_none fun trails => ((Lane.trailing_iff _).1 trails).2.2.2 ?_
    rw [cut]
    exact marks
  unfold State.flush
  dsimp only
  rw [none, State.departUpTo, unreleased, untrailing]

/-- Settles O36: the expiry is a change of state and a flush, whose last step is the stall test. -/
theorem starvedLaneStalls : Obligations.StarvedLaneStalls := by
  rintro s l ln running rfl st timer
  have pending : s.changeState l (.running true) = (s.modLane l fun x => x.inState (.running true)).wake l :=
    State.changeState_staying s l _ (.inr rfl)
  have lane : ((s.modLane l fun x => x.inState (.running true)).wake l).lane l = (s.lane l).inState (.running true) := by
    rw [State.lane_wake, State.lane_modLane_same]
  refine ⟨?_, fun held runs assembly marks => ?_⟩
  · obtain ⟨v, work, flushed, carried⟩ := State.flush_carried ((s.modLane l fun x => x.inState (.running true)).wake l) l
    rw [lane] at carried
    have expires := exec_starvationExpiry running st timer
    unfold State.expireLane at expires
    rw [pending, flushed] at expires
    have stv : (v.lane l).state = .running true := carried.state
    have share : LaneShare l s v := (LaneShare.trans (.modLane s l fun x => x.inState (.running true)) (.wake _ l)).trans work.share
    obtain ⟨kept, others, profiles⟩ := share.stallKept (fun m hm => by
        rw [work.frame.others m hm, State.lane_wake, State.lane_modLane_ne _ _ hm])
      (by rw [work.frame.profiles]; simp) (by rw [work.frame.checker]; simp) (by rw [st]; rfl) stv (by rw [carried.hum]; rfl)
    have stalls : (v.lane l).counter .stalls = (s.lane l).counter .stalls :=
      carried.counters .stalls (by decide) (by decide) (by decide)
    have settled := carried.settled ((s.lane l).det.growing_cut)
    have stopped : (v.lane l).timer = { remaining := 0, counting := false } := by
      rw [carried.timer]
      change (s.lane l).timer.stop = _
      rw [timer]
      rfl
    by_cases empty : (v.lane l).workEmpty = true
    · obtain ⟨a, after⟩ := State.lane_settle_stalled stv empty
      refine ⟨_, expires, ?_, ?_, ?_, ?_, ?_, ?_, ?_, others, profiles, kept⟩
      · rw [after]
        exact .inl rfl
      · rw [after]
        exact iff_of_true rfl ((Lane.workEmpty_iff _).1 empty)
      · have stalled : ((v.settle l).lane l).state = .stalled := by
          rw [after]
          rfl
        rw [if_pos stalled, after, ← stalls]
        exact (v.lane l).counter_bump_same .stalls 1
      · rw [after]
        exact settled
      · rw [after]
        exact carried.allocation
      · rw [after]
        exact carried.expected
      · rw [after]
        change (v.lane l).timer.stop = _
        rw [stopped]
        rfl
    · have stays : v.settle l = v := State.settle_none fun done => empty done.1
      rw [stays] at expires kept others profiles
      refine ⟨v, expires, .inr stv, ?_, ?_, settled, carried.allocation, carried.expected, stopped, others, profiles, kept⟩
      · rw [stv]
        exact iff_of_false (by simp) fun none => empty ((Lane.workEmpty_iff _).2 none)
      · rw [stv, if_neg (by simp), stalls, satBump_zero]
  · have expires := exec_starvationExpiry running st timer
    unfold State.expireLane at expires
    rw [pending, State.flush_empty (by rw [lane]; exact held) (by rw [lane]; exact runs) (by rw [lane]; exact marks)] at expires
    have whole : ((s.modLane l fun x => x.inState (.running true)).wake l).modDet l Detector.cut =
        { s with
          lanes := s.lanes.set l { (s.lane l).inState (.running true) with det := (s.lane l).det.cut }
          intake := s.intake.offeredAgain l } := by
      rw [State.wake_offeredAgain]
      simp [State.modDet, State.modLane, State.lane, Lane.inState]
    rw [whole] at expires
    have now := State.lane_of_set (s := s) (l := l)
      (t := { s with
        lanes := s.lanes.set l { (s.lane l).inState (.running true) with det := (s.lane l).det.cut }
        intake := s.intake.offeredAgain l }) rfl
    refine expires.trans (congrArg Host.Outcome.next ?_)
    rw [State.settle_stalled (by rw [now]; exact (Lane.workEmpty_iff _).2 ⟨held, assembly, marks⟩) (by rw [now]; rfl), now]
    refine congrArg (fun u : State => (u.leftBy l (s.lane l).hum.profile).issue
      (noticeOf .laneStalled (some l) ((s.lane l).expected.getD 0) 0)) ?_
    simp only [Vector.set_set, IntakePort.offeredAgain_twice]
    rw [Detector.cut_none runs]
    simp [Lane.inState, Lane.counted, Timer.stop, timer]

end Sys2Proof.Machine
end

section
/-! Drains in the words of the statements, and STOP_LANE on a RUNNING lane (R9, R10, R38, R128). -/

namespace Sys2Proof.Machine

/-! ### The messages that work adds -/

/-- Only notices have joined the message queue. -/
def State.NoticesOnly (s t : State) : Prop :=
  ∃ ms : List Message, (∀ m ∈ ms, ∃ lost es, m = .notice lost es) ∧ t.delivery.messages = s.delivery.messages ++ ms

theorem State.NoticesOnly.of_same {s t : State} (h : t.delivery.messages = s.delivery.messages) : s.NoticesOnly t :=
  ⟨[], by simp, by rw [h, List.append_nil]⟩

theorem State.NoticesOnly.trans {s t u : State} (h : s.NoticesOnly t) (k : t.NoticesOnly u) : s.NoticesOnly u := by
  obtain ⟨ms, notices, joined⟩ := h
  obtain ⟨ns, notices', joined'⟩ := k
  exact ⟨ms ++ ns, List.forall_mem_append.2 ⟨notices, notices'⟩, by rw [joined', joined, List.append_assoc]⟩

theorem State.NoticesOnly.issue (s : State) (n : Notice) : s.NoticesOnly (s.issue n) := by
  have committed : ∀ d : DeliveryPort, ∃ ms : List Message, (∀ m ∈ ms, ∃ lost es, m = .notice lost es)
      ∧ d.commitDue.messages = d.messages ++ ms := fun d => by
    unfold DeliveryPort.commitDue
    split
    · exact ⟨_, List.forall_mem_singleton.2 ⟨_, _, rfl⟩, rfl⟩
    · exact ⟨[], by simp, (List.append_nil _).symm⟩
  have same : s.NoticesOnly s := .of_same rfl
  unfold State.NoticesOnly
  rw [State.delivery_issue]
  unfold DeliveryPort.issue
  split
  · split
    · exact committed (s.delivery.join n)
    · exact same
  · exact same

theorem Work.noticesOnly {s t : State} (w : Work s t) : s.NoticesOnly t := by
  induction w with
  | refl | blocks | checker | headWaiting | push => exact .of_same rfl
  | trans _ _ first second => exact first.trans second
  | issue s n => exact .issue s n

/-! ### The drain -/

/-- The part as a RUNNING lane begins to drain: the lane DRAINING, and its leaving RUNNING made of the shared units (R10,
R38, R128). -/
def State.drainBegun (s : State) (l : LaneId) (d : DrainTarget) : State :=
  State.leftBy
    { s with
      lanes := s.lanes.set l ((s.lane l).inState (.draining d))
      intake := s.intake.offeredAgain l } l (s.lane l).hum.profile

theorem LaneState.not_running_of_atRest {st : LaneState} (h : st.atRest = true) : st.isRunning = false := by
  cases st with
  | off | armed | stalled | draining => rfl
  | running => contradiction

section
variable {s : State} {l : LaneId}

theorem State.changeState_drain (runs : (s.lane l).state.isRunning = true) (d : DrainTarget) :
    s.changeState l (.draining d) = s.drainBegun l d := by
  rw [State.changeState_leaving s l _ runs rfl, State.wake_offeredAgain]
  rfl

theorem State.lane_drainBegun (d : DrainTarget) :
    ∃ a, (s.drainBegun l d).lane l = { (s.lane l).inState (.draining d) with hum := a } := by
  obtain ⟨a, same⟩ := State.humOnly_leftBy
    { s with
      lanes := s.lanes.set l ((s.lane l).inState (.draining d))
      intake := s.intake.offeredAgain l } l (s.lane l).hum.profile l
  exact ⟨a, same.trans (congrArg (fun x : Lane => { x with hum := a }) (State.lane_of_set (s := s) rfl))⟩

/-- A drain is the change of state and then, if no flush is in force, the flush; its last step is the drain test. -/
theorem State.beginDrain_carried (runs : (s.lane l).state.isRunning = true) (d : DrainTarget) :
    ∃ v x, LaneWork l (s.drainBegun l d) v ∧ s.beginDrain l d = v.settle l
      ∧ x.Carried (v.lane l)
      ∧ (∃ a e, x = { (s.lane l).inState (.draining d) with hum := a, det := e }
          ∧ ((s.lane l).state.isFlushing = false → ∀ r ∈ e.runs, r.growing = false)) := by
  obtain ⟨a, lane⟩ := State.lane_drainBegun (s := s) (l := l) d
  unfold State.beginDrain
  dsimp only
  rw [State.changeState_drain runs]
  split
  · rename_i flushing
    refine ⟨_, _, .refl _, rfl, .refl _, a, (s.lane l).det, lane, fun still => ?_⟩
    rw [flushing] at still
    contradiction
  · obtain ⟨v, work, flushed, carried⟩ := State.flush_carried (s.drainBegun l d) l
    rw [lane] at carried
    exact ⟨v, _, work, flushed, carried, a, _, rfl, fun _ => (s.lane l).det.growing_cut⟩

/-- What a drain leaves of the rest of the part (R10, R38, R128). -/
theorem State.beginDrain_kept (runs : (s.lane l).state.isRunning = true) (d : DrainTarget) :
    WorkKept s (s.beginDrain l d) l ∧ OtherLanesKept s (s.beginDrain l d) l ∧ ProfilesIfLeft s (s.beginDrain l d) l
      ∧ ((s.beginDrain l d).lane l).state.isRunning = false := by
  obtain ⟨v, x, work, drains, carried, a, e, isX, _⟩ := State.beginDrain_carried runs d
  have still : ((s.drainBegun l d).lane l).state.isRunning = false := by
    obtain ⟨a, lane⟩ := State.lane_drainBegun (s := s) (l := l) d
    rw [lane]
    rfl
  have state : (v.lane l).state = .draining d := by
    rw [carried.state, isX]
    rfl
  have now : ((v.settle l).lane l).state.isRunning = false := by
    by_cases empty : (v.lane l).workEmpty = true
    · obtain ⟨rest, _⟩ := v.lane_settle l empty (by rw [state]; rfl)
      exact LaneState.not_running_of_atRest rest
    · rw [State.settle_none fun done => empty done.1, state]
      rfl
  obtain ⟨kept, others, profiles⟩ := work.settleKept
  have stays : ¬(((s.drainBegun l d).lane l).state.isRunning = true ∧ ((v.settle l).lane l).state.isRunning = false) :=
    fun left => absurd (still.symm.trans left.1) (by decide)
  rw [ProfilesIfLeft, if_neg stays] at profiles
  obtain ⟨_, _, _, _, _, _, _, _, _, _, _, _, _, _, _, _, _, checker, _⟩ := kept
  rw [CheckerIfLeft, if_neg fun left => stays left.2] at checker
  have share : LaneShare l s (v.settle l) :=
    ((((LaneShare.trans (.modLane s l fun x => x.inState (.draining d)) (.wake _ l)).trans
      (State.leftBy_share _ l l (s.lane l).hum.profile)).trans (by
        rw [State.wake_offeredAgain]
        exact work.share)).trans (v.settle_share l))
  rw [drains]
  obtain ⟨k, o, p⟩ := share.keptLeaving
    (u := { s with
      lanes := s.lanes.set l ((s.lane l).inState (.draining d))
      intake := s.intake.offeredAgain l })
    (fun m hm => State.lane_modLane_ne s (fun _ => _) hm) rfl rfl runs
    (by rw [State.lane_of_set (s := s) rfl]; rfl) (fun m hm => by
      rw [others m hm, State.phaseAfter_same _ _ _ fun k _ => congrArg (fun ps => ps[k]) profiles]
      rfl) now profiles checker
  exact ⟨k, o, p, now⟩

end

/-! ### The drain of a lane with no held work -/

/-- The entry of a lane whose drain ends in OFF. -/
def Lane.drainedOff (x : Lane) : Lane := (x.inState .off).clearedOff

theorem Lane.drainedOff_eq {x : Lane} (records : x.det.runs = []) :
    x.drainedOff =
      { x with
        state := .off
        allocation := 0
        timer := { remaining := x.timer.remaining, counting := false }
        hum := { profile := none, index := 0, restart := false }
        det :=
          { h1 := 0, h2 := 0, valid := 0, lastEntered := none, calmCount := 0, calmStart := none
            forcedRemainder := 0
            forcedCauses := { detected := false, splice := false, junction := false, conceal := false }
            runs := [] }
        gate := .opened } := by
  unfold Lane.drainedOff Lane.clearedOff
  rw [show (x.inState .off).det.runs = [] from records]
  rfl

/-- What the part after a change of lane l's entry in the midst of its leaving RUNNING is, with the entry changed first. -/
theorem State.drainBegun_modLane {s : State} {l : LaneId} {d : DrainTarget} {f : Lane → Lane}
    (phase : ∀ x k n, f (Lane.reducePhase x k n) = (f x).reducePhase k n)
    (still : ∀ x : Lane, x.state.isRunning = false → (f x).state.isRunning = false) :
    (s.drainBegun l d).modLane l f =
      State.leftBy
        { s with
          lanes := s.lanes.set l (f ((s.lane l).inState (.draining d)))
          intake := s.intake.offeredAgain l } l (s.lane l).hum.profile := by
  have lane := State.lane_of_set (s := s) (l := l) (y := (s.lane l).inState (.draining d))
    (t := { s with
      lanes := s.lanes.set l ((s.lane l).inState (.draining d))
      intake := s.intake.offeredAgain l }) rfl
  unfold State.drainBegun
  rw [State.leftBy_modLane phase fun k => ?_]
  · refine congrArg (fun u : State => u.leftBy l (s.lane l).hum.profile) ?_
    simp [State.modLane]
  · rw [lane]
    unfold Lane.uses
    rw [still _ rfl]
    rfl

/-- In the midst of its leaving RUNNING a waiting head of the lane has been offered again (R140). -/
theorem State.offeredAgain_drainBegun (s : State) (l : LaneId) (d : DrainTarget) :
    (s.drainBegun l d).intake.offeredAgain l = (s.drainBegun l d).intake := by
  have intake : (s.drainBegun l d).intake = s.intake.offeredAgain l := State.intake_leftBy _ l _
  rw [intake, IntakePort.offeredAgain_twice]

theorem Lane.drainedOff_reducePhase {g : Lane → Lane} (own : ∀ x h, g { x with hum := h } = { g x with hum := h }) (x : Lane)
    (k : ProfileId) (n : Nat) : (g (x.reducePhase k n)).drainedOff = (g x).drainedOff.reducePhase k n := by
  have none : (g x).drainedOff.reducePhase k n = (g x).drainedOff := by
    simp [Lane.reducePhase, Lane.drainedOff, Lane.clearedOff, LaneHum.powerOn]
  rw [none]
  unfold Lane.reducePhase
  split
  · rw [own]
    rfl
  · rfl

/-- A lane with nothing held and no run drains in one event: its entry is that of an OFF lane before its leaving RUNNING is
made of the shared units, or after (R10, R38). -/
theorem State.beginDrain_off_empty {s : State} {l : LaneId} (runs : (s.lane l).state.isRunning = true)
    (held : (s.lane l).held = []) (records : (s.lane l).det.runs = []) (assembly : (s.lane l).assembly = .empty)
    (marks : (s.lane l).marks = []) :
    s.beginDrain l .off =
      State.issue
        (State.leftBy
          { s with
            lanes := s.lanes.set l (s.lane l).drainedOff
            intake := s.intake.offeredAgain l } l (s.lane l).hum.profile)
        (noticeOf .laneIdle (some l) 0 0) := by
  obtain ⟨a, lane⟩ := State.lane_drainBegun (s := s) (l := l) .off
  have ends : ∀ g : Lane → Lane, (∀ x h, g { x with hum := h } = { g x with hum := h }) →
      (∀ x, (g x).state = x.state ∧ (g x).held = x.held ∧ (g x).assembly = x.assembly ∧ (g x).marks = x.marks) →
      (g ((s.lane l).inState (.draining .off))).drainedOff = (s.lane l).drainedOff →
      ((s.drainBegun l .off).modLane l g).settle l =
        State.issue
          (State.leftBy
            { s with
              lanes := s.lanes.set l (s.lane l).drainedOff
              intake := s.intake.offeredAgain l } l (s.lane l).hum.profile)
          (noticeOf .laneIdle (some l) 0 0) := by
    intro g own same off
    have now : ((s.drainBegun l .off).modLane l g).lane l = g { (s.lane l).inState (.draining .off) with hum := a } := by
      rw [State.lane_modLane_same, lane]
    obtain ⟨state, held', assembly', marks'⟩ := same { (s.lane l).inState (.draining .off) with hum := a }
    have drained := State.drainBegun_modLane (s := s) (l := l) (d := .off) (f := fun x => (g x).drainedOff)
      (Lane.drainedOff_reducePhase own) fun _ _ => rfl
    rw [off] at drained
    rw [State.settle_off (by rw [now]; exact (Lane.workEmpty_iff _).2 ⟨held'.trans held, assembly'.trans assembly, marks'.trans marks⟩)
      (by rw [now, state]; rfl), ← drained]
    refine congrArg (fun u : State => u.issue (noticeOf .laneIdle (some l) 0 0)) ?_
    simp [State.modLane, State.lane, Lane.drainedOff, State.offeredAgain_drainBegun]
  unfold State.beginDrain
  dsimp only
  rw [State.changeState_drain runs]
  split
  · have same : (s.drainBegun l .off).modLane l id = s.drainBegun l .off := by simp [State.modLane]
    have settled := ends id (fun _ _ => rfl) (fun _ => ⟨rfl, rfl, rfl, rfl⟩) rfl
    rw [same] at settled
    exact settled
  · rw [State.flush_empty (by rw [lane]; exact held) (by rw [lane]; exact records) (by rw [lane]; exact marks)]
    refine ends (fun x => { x with det := x.det.cut }) (fun _ _ => rfl) (fun _ => ⟨rfl, rfl, rfl, rfl⟩) ?_
    have cut : (s.lane l).det.cut.runs = [] := congrArg (List.map RunRecord.cut) records
    simp [Lane.drainedOff, Lane.inState, Lane.clearedOff, Timer.stop, cut, records]

/-! ### STOP_LANE on a RUNNING lane -/

/-- The drain test of a lane that drains toward OFF (R10). -/
theorem State.lane_settle_off {v : State} {l : LaneId} (st : (v.lane l).state = .draining .off)
    (empty : (v.lane l).workEmpty = true) : (v.settle l).lane l = (v.lane l).drainedOff := by
  rw [State.settle_off empty st, State.lane_issue]
  exact State.lane_of_set (s := v) rfl

/-- A command in whose take a lane leaves RUNNING and a notice is issued is answered as from the part before the take. -/
theorem State.done_issue_leftBy {u : State} {l : LaneId} {old : Option ProfileId} {n : Notice} {c : ControlUnit}
    (h : u.control = c) (tag : Word) (rest : List ControlParcel) :
    ((State.leftBy { u with control := { c with queue := rest } } l old).issue n).replied tag
        ((State.leftBy { u with control := { c with queue := rest } } l old).issue n).control.queue .done false []
      = ((u.leftBy l old).issue n).done tag rest [] := by
  have control : (u.leftBy l old).control = c := (u.leftBy_share l l old).work.control.trans h
  have control' : ((u.leftBy l old).issue n).control = c := control
  rw [State.leftBy_control]
  unfold State.done State.replied
  rw [control']
  rfl

theorem stopLane_running {s : State} {l : LaneId} {p : Bool} (st : (s.lane l).state = .running p) :
    stopLane l s = doneWith [] (s.beginDrain l .off) := by
  unfold stopLane
  rw [st]

/-- Settles O7: the drain by its change of state, its flush and its last test; and the drain of a lane with nothing held as
one record. -/
theorem stopLaneDrainsARunningLane : Obligations.StopLaneDrainsARunningLane := by
  intro s tag rest l p ready st
  have runs : ((s.beginTake rest).lane l).state.isRunning = true := by
    change (s.lane l).state.isRunning = true
    rw [st]
    rfl
  have rule : laneCommand stopLane [BitVec.ofNat 16 l.val] (s.beginTake rest)
      = doneWith [] ((s.beginTake rest).beginDrain l .off) :=
    (laneCommand_lane l stopLane _).trans (stopLane_running st)
  have answers : exec .stopLane s = .next (((s.beginTake rest).beginDrain l .off).queueReply tag
      (doneWith [] ((s.beginTake rest).beginDrain l .off))) := by
    rw [exec_stopLane, takeCommand_ready _ ready, rule]
    rfl
  refine ⟨⟨_, answers, ?_⟩, fun held records assembly marks => ?_⟩
  · obtain ⟨kept, others, profiles, now⟩ := State.beginDrain_kept runs .off
    rw [ProfilesIfLeft, if_pos ⟨runs, now⟩] at profiles
    obtain ⟨ms, notices, messages⟩ := ((s.beginTake rest).beginDrain_work l .off).noticesOnly
    obtain ⟨_, _, ramps, control, waiting, intake, _, _, _, _, _, _, _, _, samples, config, _⟩ := kept
    obtain ⟨v, x, _, drains, carried, a, e, isX, closed⟩ := State.beginDrain_carried runs .off
    generalize whole : (s.beginTake rest).beginDrain l .off = t at *
    have state : (v.lane l).state = .draining .off := by
      rw [carried.state, isX]
      rfl
    have allocation : (v.lane l).allocation = (s.lane l).allocation := by
      rw [carried.allocation, isX]
      rfl
    have stopped : (v.lane l).timer.counting = false := by
      rw [carried.timer, isX]
      rfl
    have settled : p = false → ∀ r ∈ (v.lane l).det.runs, r.growing = false := fun calm => by
      refine carried.settled ?_
      rw [isX]
      refine closed ?_
      change (s.lane l).state.isFlushing = false
      rw [st, calm]
      rfl
    have replied : RepliedAfterNotices s (t.queueReply tag (doneWith [] t)) tag rest [] := by
      refine ⟨⟨ms, notices, ?_⟩, ?_, rfl⟩
      · change t.delivery.messages ++ [Message.reply tag .done t.control.lost []] = _
        rw [messages, control]
        rfl
      · change ({ t.control with lost := false } : ControlUnit).bump .replies = _
        rw [control]
        rfl
    by_cases empty : (v.lane l).workEmpty = true
    · have lane := State.lane_settle_off state empty
      rw [← drains] at lane
      have own : (t.queueReply tag (doneWith [] t)).lane l = (v.lane l).drainedOff := lane
      refine ⟨?_, ?_, ?_, config l, ?_, others, profiles, samples, ramps, waiting, intake, replied⟩
      · rw [own]
        exact .inl ⟨rfl, rfl⟩
      · rw [own]
        exact iff_of_true rfl ((Lane.workEmpty_iff _).1 empty)
      · rw [own]
        exact settled
      · rw [own]
        rfl
    · have same : t = v := drains.trans (State.settle_none fun done => empty done.1)
      have lane : t.lane l = v.lane l := by rw [same]
      have own : (t.queueReply tag (doneWith [] t)).lane l = v.lane l := lane
      refine ⟨?_, ?_, ?_, config l, ?_, others, profiles, samples, ramps, waiting, intake, replied⟩
      · rw [own]
        exact .inr ⟨state, allocation⟩
      · rw [own, state]
        exact iff_of_false (by simp) fun none => empty ((Lane.workEmpty_iff _).2 none)
      · rw [own]
        exact settled
      · rw [own]
        exact stopped
  · rw [State.beginDrain_off_empty runs held records assembly marks] at rule
    have off : ((s.beginTake rest).lane l).drainedOff = _ := Lane.drainedOff_eq records
    rw [off] at rule
    rw [exec_stopLane]
    exact takeCommand_done ready rule (State.done_issue_leftBy (u := { s.inTake with lanes := _, intake := _ }) rfl tag rest)

end Sys2Proof.Machine
end

section
/-! The detector's step on one sample, for every run list and under any forced spans (R52 to R66). -/

namespace Sys2Proof.Machine

/-! ### Records that grow -/

/-- The record grown to x, its fields one by one (R55). -/
theorem RunRecord.grow_eq (r : RunRecord) (limit x : Nat) (cs : Causes) :
    r.grow limit x cs =
      { r with
        last := x
        causes := r.causes.join cs
        state := if r.state = .opened ∧ limit < x - r.first + 1 then .unrepaired .tooLong else r.state } := by
  unfold RunRecord.grow RunRecord.length
  dsimp only
  split <;> rfl

/-- The record reopened by a merge at x, its fields one by one (R54). -/
theorem RunRecord.reopen_eq (r : RunRecord) (limit x : Nat) (cs : Causes) :
    r.reopen limit x cs =
      { r with
        growing := true
        last := x
        causes := r.causes.join cs
        rightAnchor := none
        state :=
          if r.state ≠ .opened ∧ r.state ≠ .queued then r.state
          else if limit < x - r.first + 1 then .unrepaired .tooLong
          else .opened } := by
  unfold RunRecord.reopen
  dsimp only
  rw [RunRecord.grow_eq]
  by_cases opened : r.state = .opened
  · simp [opened]
  · by_cases queued : r.state = .queued <;> simp [opened, queued]

/-- What a run becomes at its normal close, with the reasons in the order of their tests (R56). -/
theorem RunRecord.closedState_eq (r : RunRecord) (limit waiting : Nat) :
    r.closedState limit (decide (waiting < Config.repairQueueSize)) =
      if r.state ≠ .opened then r.state
      else if limit < r.last - r.first + 1 then .unrepaired .tooLong
      else if r.leftAnchor = none then .unrepaired .noAnchor
      else if 16 ≤ waiting then .unrepaired .queueFull
      else .queued := by
  unfold RunRecord.closedState RunRecord.length Config.repairQueueSize
  by_cases opened : r.state = .opened
  · simp only [opened, if_true, ne_eq, not_true_eq_false, if_false]
    by_cases full : 16 ≤ waiting <;> simp [full, Nat.not_lt.2, Nat.not_le.1]
  · simp [opened]

/-! ### The open run and the free record -/

theorem Detector.openRun?_eq_filter (d : Detector) : d.openRun? = d.runs.getLast?.filter fun r => r.growing := by
  unfold Detector.openRun? Detector.latest?
  cases d.runs.getLast? with
  | none => rfl
  | some r => cases h : r.growing <;> simp [h, Option.filter]

theorem State.mem_usedRuns_iff (s : State) (k : Nat) :
    k ∈ s.usedRuns ↔ ∃ m : LaneId, ∃ q ∈ (s.lane m).det.runs, q.number = k := by
  simp only [State.mem_usedRuns, Lane.runNumbers, List.mem_map]

/-- The lowest number that no run uses is the free record's (R51). -/
theorem State.freeRun?_of_lowest {s : State} {k : Nat} (low : k < 64) (free : k ∉ s.usedRuns)
    (used : ∀ i < k, i ∈ s.usedRuns) : s.freeRun? = some k := by
  unfold State.freeRun?
  rw [List.find?_range_eq_some]
  exact ⟨by simpa using free, List.mem_range.2 low, fun i hi => by simpa using used i hi⟩

theorem State.freeRun?_of_full {s : State} (used : ∀ k < 64, k ∈ s.usedRuns) : s.freeRun? = none := by
  unfold State.freeRun?
  rw [List.find?_eq_none]
  intro k hk
  simpa using used k (List.mem_range.1 hk)

/-! ### The release test and a change outside the run list -/

theorem State.modDet_reportRelease (s : State) (l : LaneId) (r : RunRecord) (f : Detector → Detector) :
    (s.modDet l f).reportRelease l r = (s.reportRelease l r).modDet l f := by
  have counted (c : LaneCounter) : (s.modDet l f).count l c 1 = (s.count l c 1).modDet l f := by
    rw [State.modDet_eq_withLane, State.count_eq_withLane, State.count_eq_withLane, State.modDet_eq_withLane]
    simp only [State.lane_withLane_same, State.withLane_withLane]
    rfl
  unfold State.reportRelease
  split
  · exact counted _
  · rw [counted]
    exact State.issue_withLane _ _ _ _
  all_goals rfl

/-- The history moves on beside the release test, which does not read it. -/
theorem State.remember_releaseRuns (s : State) (l : LaneId) (v : Sample) :
    (s.releaseRuns l).modDet l (fun d => d.remember v) = (s.modDet l fun d => d.remember v).releaseRuns l := by
  have reports : ∀ (rs : List RunRecord) (u : State),
      rs.foldl (fun t r => t.reportRelease l r) (u.modDet l fun d => d.remember v)
        = (rs.foldl (fun t r => t.reportRelease l r) u).modDet l fun d => d.remember v := by
    intro rs
    induction rs with
    | nil => exact fun u => rfl
    | cons r rs ih =>
      intro u
      rw [List.foldl_cons, State.modDet_reportRelease, ih, List.foldl_cons]
  have entry : (s.modDet l fun d => d.remember v).lane l = { s.lane l with det := (s.lane l).det.remember v } :=
    State.lane_withLane_same s l _
  have runs : ((s.modDet l fun d => d.remember v).lane l).det.runs = (s.lane l).det.runs := by rw [entry]; rfl
  have head : ((s.modDet l fun d => d.remember v).lane l).headPosition = (s.lane l).headPosition := by rw [entry]; rfl
  unfold State.releaseRuns
  dsimp only
  rw [runs, head]
  split
  · rfl
  · rw [← reports]
    congr 1
    simp only [State.modDet, State.modLane, State.lane, Fin.getElem_fin, Vector.getElem_set_self, Vector.set_set,
      Detector.remember]

/-! ### The step on a sample -/

/-- What the step leaves of detector e once it has classified sample v: the history has moved on and one sample of a forced
span is spent (R48, R49, R52). -/
def Detector.after (d : Detector) (v : Sample) (e : Detector) : Detector :=
  { e with
    h1 := v
    h2 := d.h1
    valid := min 2 (d.valid + 1)
    lastEntered := some v
    forcedRemainder := d.forcedRemainder - 1
    forcedCauses := if d.forcedRemainder = 1 then Causes.none else d.forcedCauses }

/-- Detector e has the history and the forced span of d. -/
structure Detector.SameCourse (d e : Detector) : Prop where
  history : e.h1 = d.h1 ∧ e.valid = d.valid
  forced : e.forcedRemainder = d.forcedRemainder ∧ e.forcedCauses = d.forcedCauses

/-- The causes with which a sample joins a run (R52, R59). -/
def Detector.causesAt (d : Detector) (loud : Bool) : Causes :=
  (if 0 < d.forcedRemainder then d.forcedCauses else Causes.none).join (Causes.detectedIf loud)

/-- The spans that begin at a sample are applied one after another, before the sample is classified (R52). -/
theorem State.detect_cons (s : State) (l : LaneId) (c : LaneConfig) (n : SeqNum) (v : Sample) (x : Causes × Nat)
    (spans : List (Causes × Nat)) :
    s.detect l c n (x :: spans) v = (s.modDet l fun d => d.beginSpan x.1 x.2).detect l c n spans v := by
  have begun : (s.modDet l fun d => d.beginSpans (x :: spans))
      = (s.modDet l fun d => d.beginSpan x.1 x.2).modDet l fun d => d.beginSpans spans := by
    simp only [State.modDet_eq_withLane, State.lane_withLane_same, State.withLane_withLane]
    rfl
  unfold State.detect
  rw [begun]

section
variable {s : State} {l : LaneId} {c : LaneConfig} {n : SeqNum} {v : Sample} {d : Detector} {loud : Bool}

theorem State.detect_nil (s : State) (l : LaneId) (c : LaneConfig) (n : SeqNum) (v : Sample) :
    s.detect l c n [] v =
      (if 0 < (s.lane l).det.forcedRemainder then
        (s.joinRun l c n ((s.lane l).det.forcedCauses.join (Causes.detectedIf ((s.lane l).det.isLoud c v)))).modDet l
          Detector.spendForced
      else if (s.lane l).det.isLoud c v then s.joinRun l c n (Causes.detectedIf true)
      else s.calmSample l c v).modDet l fun d => d.remember v := by
  have none : (s.modDet l fun d => d.beginSpans []) = s := State.withLane_self s l
  unfold State.detect
  rw [none]

/-- The step on a sample that joins a run (R52). -/
theorem State.detect_joins (hd : d = (s.lane l).det) (hl : loud = d.isLoud c v)
    (joins : 0 < d.forcedRemainder ∨ loud = true)
    {t : State} (joined : s.joinRun l c n (d.causesAt loud) = t) (same : d.SameCourse (t.lane l).det) :
    s.detect l c n [] v = t.withLane l { t.lane l with det := d.after v (t.lane l).det } := by
  obtain ⟨⟨h1, valid⟩, remainder, causes⟩ := same
  rw [State.detect_nil, ← hd, ← hl]
  unfold Detector.causesAt at joined
  by_cases forced : 0 < d.forcedRemainder
  · rw [if_pos forced] at joined ⊢
    rw [joined]
    simp only [State.modDet_eq_withLane, State.lane_withLane_same, State.withLane_withLane]
    have last : d.forcedRemainder - 1 = 0 ↔ d.forcedRemainder = 1 := by omega
    simp only [Detector.remember, Detector.spendForced, Detector.after, h1, valid, remainder, causes, last]
  · have isLoud : loud = true := joins.resolve_left forced
    have unforced : d.forcedRemainder = 0 := Nat.eq_zero_of_not_pos forced
    rw [if_neg forced, isLoud] at joined
    rw [if_neg forced, isLoud, if_pos rfl]
    have alone : Causes.none.join (Causes.detectedIf true) = Causes.detectedIf true := rfl
    rw [← alone, joined, State.modDet_eq_withLane]
    simp only [Detector.remember, Detector.after, h1, valid, unforced]
    rw [← causes, ← unforced]
    simp [remainder, unforced]

/-- The step on a calm sample that no span forces (R52). -/
theorem State.detect_calm (hd : d = (s.lane l).det) (calm : d.isLoud c v = false) (unforced : d.forcedRemainder = 0) :
    s.detect l c n [] v = (s.calmSample l c v).modDet l fun d => d.remember v := by
  rw [State.detect_nil, ← hd, calm, unforced]
  simp

/-! ### The four ways a sample joins a run -/

/-- The step on a sample that joins a run, the join being a new detector beside a change elsewhere. -/
theorem State.detect_joinsAs (hd : d = (s.lane l).det) (hl : loud = d.isLoud c v)
    (joins : 0 < d.forcedRemainder ∨ loud = true) {u : State} {e : Detector}
    (joined : s.joinRun l c n (d.causesAt loud) = u.withLane l { s.lane l with det := e }) (same : d.SameCourse e) :
    s.detect l c n [] v = u.withLane l { s.lane l with det := d.after v e } := by
  rw [State.detect_joins hd hl joins joined (by rw [State.lane_withLane_same]; exact same)]
  simp only [State.lane_withLane_same, State.withLane_withLane]

theorem State.joinRun_of_open (hd : d = (s.lane l).det) {r : RunRecord} (isOpen : d.openRun? = some r) (cs : Causes) :
    s.joinRun l c n cs =
      s.withLane l
        { s.lane l with
          det := (d.modRun r.number fun r => r.grow c.repairLimit (s.lane l).nextPosition cs).resetCalm } := by
  subst hd
  unfold State.joinRun
  rw [isOpen]
  exact State.modDet_eq_withLane s l _

theorem State.joinRun_of_mergeable (hd : d = (s.lane l).det) (closed : d.openRun? = none) {r : RunRecord}
    (latest : d.latest? = some r) (merges : r.mergeable (s.lane l).nextPosition c.quietCount c.mergeDistance = true)
    (cs : Causes) :
    s.joinRun l c n cs =
      (s.dropRepairEntry l r.number).withLane l
        { s.lane l with
          det := (d.modRun r.number fun r => r.reopen c.repairLimit (s.lane l).nextPosition cs).resetCalm } := by
  subst hd
  unfold State.joinRun State.openRun
  rw [closed, latest]
  dsimp only
  rw [if_pos merges]
  exact State.modDet_eq_withLane _ l _

theorem State.joinRun_of_apart (hd : d = (s.lane l).det) (closed : d.openRun? = none)
    (apart : ∀ r : RunRecord, d.latest? = some r →
      r.mergeable (s.lane l).nextPosition c.quietCount c.mergeDistance = false) (cs : Causes) :
    s.joinRun l c n cs = s.openNewRun l n cs := by
  subst hd
  unfold State.joinRun State.openRun
  rw [closed]
  cases latest : (s.lane l).det.latest? with
  | none => rfl
  | some r =>
    dsimp only
    rw [apart r latest]
    rfl

theorem State.openNewRun_of_free (hd : d = (s.lane l).det) {k : Nat} (free : s.freeRun? = some k) (cs : Causes) :
    s.openNewRun l n cs =
      s.withLane l
        { s.lane l with
          det := Detector.resetCalm { d with runs := d.runs ++ [newRun d k (s.lane l).nextPosition cs n] } } := by
  subst hd
  unfold State.openNewRun
  rw [free]
  exact State.modDet_eq_withLane s l _

/-- A sample that finds no free record passes as clean (R65). -/
theorem State.openNewRun_of_full (full : s.freeRun? = none) (cs : Causes) :
    s.openNewRun l n cs =
      (if s.fullNoticed = true then s
        else State.issue { s with fullNoticed := true } (noticeOf .runTableFull (some l) n 0)).withLane l
        ((s.lane l).counted .runsMissed 1) := by
  unfold State.openNewRun
  rw [full]
  by_cases noticed : s.fullNoticed = true
  · have same : (s.count l .runsMissed 1).fullNoticed = true := noticed
    rw [if_pos noticed]
    dsimp only [State.missRun]
    rw [if_pos same]
    exact State.count_eq_withLane s l _ _
  · have same : ¬(s.count l .runsMissed 1).fullNoticed = true := noticed
    rw [if_neg noticed]
    dsimp only [State.missRun]
    rw [if_neg same]
    rfl

/-! ### The close of a run -/

/-- A calm sample that is not the last the close waits for only counts (R56). -/
theorem State.calmSample_of_early (hd : d = (s.lane l).det) {r : RunRecord} (isOpen : d.openRun? = some r)
    (early : d.calmCount + 1 < c.quietCount) :
    s.calmSample l c v =
      s.withLane l
        { s.lane l with
          det :=
            { d with
              calmCount := d.calmCount + 1
              calmStart := if d.calmCount = 0 then some v else d.calmStart } } := by
  subst hd
  unfold State.calmSample
  dsimp only
  rw [isOpen]
  dsimp only
  rw [if_neg (Nat.not_le.2 early)]
  exact State.modDet_eq_withLane s l _

theorem State.calmSample_of_none (hd : d = (s.lane l).det) (closed : d.openRun? = none) : s.calmSample l c v = s := by
  subst hd
  unfold State.calmSample
  dsimp only
  rw [closed]

/-- The last calm sample closes the run, and the release test follows (R56, R90). -/
theorem State.calmSample_of_last (hd : d = (s.lane l).det) {r : RunRecord} (isOpen : d.openRun? = some r)
    (last : c.quietCount ≤ d.calmCount + 1) {st : RunState}
    (hst : st = r.closedState c.repairLimit (decide (s.repair.queue.length < Config.repairQueueSize))) :
    s.calmSample l c v =
      State.releaseRuns
        { s.withLane l
            { s.lane l with
              det := (d.modRun r.number fun q =>
                { q with
                  growing := false
                  rightAnchor := if d.calmCount = 0 then some v else d.calmStart
                  state := st }).resetCalm } with
          repair :=
            { s.repair with
              queue := s.repair.queue ++
                if r.state = .opened ∧ st = .queued then [{ lane := l, run := r.number }] else [] } }
        l := by
  subst hd
  unfold State.calmSample State.closeRun
  dsimp only
  rw [isOpen]
  dsimp only
  rw [if_pos last, ← hst]
  by_cases queued : r.state = .opened ∧ st = .queued
  · rw [if_pos queued, if_pos queued]
    rfl
  · rw [if_neg queued, if_neg queued, List.append_nil]
    rfl

end

end Sys2Proof.Machine
end

section
/-! The statements about the detector's step (R48 to R66). -/

namespace Sys2Proof.Machine

/-- A span that begins at a sample lengthens the forced remainder and joins its causes, the open run's among them (R59). -/
theorem Detector.beginSpan_eq (d : Detector) (cs : Causes) (k : Nat) (pos : k ≠ 0) :
    d.beginSpan cs k =
      { d with
        forcedRemainder := max d.forcedRemainder k
        forcedCauses := d.forcedCauses.join cs
        runs := (match d.runs.getLast? with
          | none => []
          | some r =>
            if r.growing = true then
              d.runs.map fun (q : RunRecord) => if q.number = r.number then { q with causes := q.causes.join cs } else q
            else d.runs) } := by
  unfold Detector.beginSpan Detector.openRun? Detector.latest?
  rw [if_neg pos]
  dsimp only
  cases latest : d.runs.getLast? with
  | none => rw [List.getLast?_eq_none_iff.1 latest]
  | some r =>
    by_cases growing : r.growing = true
    · dsimp only
      rw [if_pos growing, if_pos growing]
      rfl
    · dsimp only
      rw [if_neg growing, if_neg growing]

theorem State.detect_span (s : State) (l : LaneId) (c : LaneConfig) (n : SeqNum) (v : Sample) (cs : Causes) (k : Nat)
    (spans : List (Causes × Nat)) :
    s.detect l c n ((cs, k) :: spans) v =
      if k = 0 then s.detect l c n spans v
      else (s.withLane l { s.lane l with det := (s.lane l).det.beginSpan cs k }).detect l c n spans v := by
  rw [State.detect_cons]
  by_cases zero : k = 0
  · rw [if_pos zero, zero]
    exact congrArg (fun t => State.detect t l c n spans v) (State.withLane_self s l)
  · rw [if_neg zero]
    rfl

theorem Causes.detectedIf_eq (loud : Bool) :
    Causes.detectedIf loud = { detected := loud, splice := false, junction := false, conceal := false } := rfl

theorem RunRecord.mergeable_eq (r : RunRecord) (x quiet merge : Nat) :
    r.mergeable x quiet merge =
      decide ((r.state = .queued ∨ (r.state.isUnrepaired = true ∧ r.growing = false)) ∧ x ≤ r.last + quiet + merge) := by
  simp [RunRecord.mergeable]

/-- Settles O42: the sample joins a run in one of four ways, or is calm (R52). -/
theorem detectorJoinsMergesAndCloses : Obligations.DetectorJoinsMergesAndCloses := by
  unfold Obligations.DetectorJoinsMergesAndCloses
  intro s l c n v x d withDet hd hx hwith
  refine ⟨fun cs k spans => ?_, ?_⟩
  · rw [State.detect_span, hwith, ← hd]
    by_cases zero : k = 0
    · rw [if_pos zero, if_pos zero]
    · rw [if_neg zero, if_neg zero]
      exact congrArg (fun e => State.detect (s.withLane l { s.lane l with det := e }) l c n spans v)
        (Detector.beginSpan_eq d cs k zero)
  intro residual opened loud forced cs after hres hopen hloud hforced hcs hafter
  have isOpen : d.openRun? = opened := by rw [hopen, Detector.openRun?_eq_filter]
  have isLoud : loud = d.isLoud c v := by
    rw [hloud, hres]
    unfold Detector.isLoud Detector.residual
    rw [isOpen]
    cases opened <;> simp
  have causes : cs = d.causesAt loud := by
    rw [hcs, hforced]
    simp only [decide_eq_true_eq]
    rfl
  have course : after = d.after v := funext hafter
  have joins : forced = true ∨ loud = true → 0 < d.forcedRemainder ∨ loud = true := by
    rw [hforced, decide_eq_true_eq]
    exact id
  have unforced : forced = false → d.forcedRemainder = 0 := by
    rw [hforced, decide_eq_false_iff_not]
    omega
  have calm : loud = false → d.isLoud c v = false := fun h => isLoud ▸ h
  subst causes course
  simp only [hwith]
  refine ⟨fun r hr => ⟨fun h => ?_, fun hf hl early => ?_, fun hf hl last st hst => ?_⟩, fun closed hf hl => ?_,
    fun closed h mergeable hmerge => ⟨fun r latest merges => ?_, fun apart => ⟨fun k low free used => ?_, fun full => ?_⟩⟩⟩
  · rw [State.detect_joinsAs hd isLoud (joins h) (State.joinRun_of_open hd (isOpen.trans hr) _)
      ⟨⟨rfl, rfl⟩, rfl, rfl⟩]
    simp only [Detector.resetCalm, Detector.modRun, RunRecord.grow_eq, ← hx]
  · rw [State.detect_calm hd (calm hl) (unforced hf), State.calmSample_of_early hd (isOpen.trans hr) early,
      State.modDet_eq_withLane]
    simp only [State.lane_withLane_same, State.withLane_withLane, Detector.remember, Detector.after, unforced hf]
    rfl
  · rw [State.detect_calm hd (calm hl) (unforced hf),
      State.calmSample_of_last hd (isOpen.trans hr) last (hst.trans (RunRecord.closedState_eq r _ _).symm),
      State.remember_releaseRuns]
    refine congrArg (fun t => State.releaseRuns t l) ?_
    rw [State.modDet_eq_withLane]
    simp only [State.withLane, State.lane, Fin.getElem_fin, Vector.getElem_set_self, Vector.set_set, Detector.remember,
      Detector.after, Detector.resetCalm, Detector.modRun, unforced hf]
    rfl
  · rw [State.detect_calm hd (calm hl) (unforced hf), State.calmSample_of_none hd (isOpen.trans closed),
      State.modDet_eq_withLane, ← hd]
    simp only [Detector.remember, Detector.after, unforced hf]
    rfl
  · have test : mergeable r = r.mergeable (s.lane l).nextPosition c.quietCount c.mergeDistance := by
      rw [hmerge, hx, RunRecord.mergeable_eq]
    rw [State.detect_joinsAs hd isLoud (joins h)
      (State.joinRun_of_mergeable hd (isOpen.trans closed) latest (test ▸ merges) _) ⟨⟨rfl, rfl⟩, rfl, rfl⟩]
    have entry (e : RepairEntry) :
        (!(decide (e.lane = l) && decide (e.run = r.number))) = decide (e ≠ { lane := l, run := r.number }) := by
      obtain ⟨a, b⟩ := e
      simp
    simp only [Detector.resetCalm, Detector.modRun, RunRecord.reopen_eq, State.dropRepairEntry, entry, ← hx]
    rfl
  · have record : s.freeRun? = some k :=
      State.freeRun?_of_lowest low (by rw [State.mem_usedRuns_iff]; rintro ⟨m, q, hq, same⟩; exact free m q hq same)
        fun i hi => (State.mem_usedRuns_iff s i).2 (used i hi)
    rw [State.detect_joinsAs hd isLoud (joins h) ((State.joinRun_of_apart hd (isOpen.trans closed)
        (fun r latest => by rw [RunRecord.mergeable_eq, ← hx, ← hmerge]; exact apart r latest) _).trans
        (State.openNewRun_of_free hd record _)) ⟨⟨rfl, rfl⟩, rfl, rfl⟩]
    simp only [Detector.resetCalm, newRun, ← hx]
  · have record : s.freeRun? = none := State.freeRun?_of_full fun k hk => (State.mem_usedRuns_iff s k).2 (full k hk)
    rw [State.detect_joins hd isLoud (joins h) ((State.joinRun_of_apart hd (isOpen.trans closed)
        (fun r latest => by rw [RunRecord.mergeable_eq, ← hx, ← hmerge]; exact apart r latest) _).trans
        (State.openNewRun_of_full record _)) (by rw [State.lane_withLane_same, hd]; exact ⟨⟨rfl, rfl⟩, rfl, rfl⟩)]
    simp only [State.lane_withLane_same, State.withLane_withLane]
    have kept : ((s.lane l).counted .runsMissed 1).det = d := hd.symm
    rw [kept]
    by_cases noticed : s.fullNoticed = true
    · rw [if_pos noticed]
      exact (if_pos noticed).symm
    · rw [if_neg noticed]
      exact (if_neg noticed).symm

/-! ### A single run and no forced span -/

theorem Causes.join_detected (cs : Causes) :
    cs.join { detected := true, splice := false, junction := false, conceal := false } = { cs with detected := true } := by
  simp [Causes.join]

/-- Settles O41: the cases of O42 in which no span is forced and at most one run is listed. -/
theorem detectorClassifiesASample : Obligations.DetectorClassifiesASample := by
  unfold Obligations.DetectorClassifiesASample
  intro s l c n v d residual stepped hd unforced hres hstepped
  have step (loud : Bool) (h : loud = decide ((if d.openRun? = none then c.onset else c.release) < residual.natAbs)) :=
    (detectorJoinsMergesAndCloses s l c n v _ d (fun e => s.withLane l { s.lane l with det := e }) hd rfl fun _ => rfl).2
      residual d.openRun? loud false _ (d.after v) hres d.openRun?_eq_filter h (by simp [unforced]) rfl fun _ => rfl
  have course (e : Detector) (remainder : e.forcedRemainder = 0) (causes : e.forcedCauses = d.forcedCauses) :
      s.withLane l { s.lane l with det := d.after v e } = stepped e := by
    rw [hstepped]
    simp only [Detector.after, unforced, ← remainder, ← causes]
    simp only [remainder]
    rfl
  have alone (r : RunRecord) (f : RunRecord → RunRecord) :
      [r].map (fun q => if q.number = r.number then f q else q) = [f r] := by simp
  refine ⟨fun closed calm => ?_, fun empty loud => ?_, fun r one growing within => ?_⟩
  · obtain ⟨-, onCalm, -⟩ := step false (by rw [if_pos closed]; simpa using calm)
    exact (onCalm closed rfl rfl).trans (course d unforced rfl)
  · have closed : d.openRun? = none := by rw [Detector.openRun?_eq_filter, empty]; rfl
    obtain ⟨-, -, onJoin⟩ := step true (by rw [if_pos closed]; simpa using loud)
    obtain ⟨-, onNew⟩ := onJoin closed (.inr rfl) _ fun _ => rfl
    obtain ⟨onFree, onFull⟩ := onNew (by simp [empty])
    refine ⟨fun k low free used => ?_, fun full => ?_⟩
    · refine (onFree k low (fun m q hq same => free ((s.mem_usedRuns_iff k).2 ⟨m, q, hq, same⟩))
        fun i hi => (s.mem_usedRuns_iff i).1 (used i hi)).trans ((course _ (by exact unforced) (by rfl)).trans ?_)
      rw [empty]
      rfl
    · refine (onFull fun k hk => (s.mem_usedRuns_iff k).1 (full k hk)).trans ?_
      have missed : ({ stepped d with
            lanes := (stepped d).lanes.set l (((stepped d).lane l).counted .runsMissed 1) } : State)
          = s.withLane l { (s.lane l).counted .runsMissed 1 with det := d.after v d } := by
        rw [← course d unforced rfl]
        change (s.withLane l _).withLane l (((s.withLane l _).lane l).counted .runsMissed 1) = _
        rw [State.withLane_withLane, State.lane_withLane_same]
        rfl
      exact congrArg (fun t : State =>
        if s.fullNoticed = true then t
        else State.issue { t with fullNoticed := true } (noticeOf .runTableFull (some l) n 0)) missed.symm
  · have isOpen : d.openRun? = some r := by rw [Detector.openRun?_eq_filter, one]; simp [growing, Option.filter]
    have threshold : (if d.openRun? = none then c.onset else c.release) = c.release := by rw [isOpen]; rfl
    refine ⟨fun loud => ?_, fun calm early => ?_, fun calm last held opened short anchor room => ?_⟩
    · obtain ⟨onOpen, -, -⟩ := step true (by rw [threshold]; simpa using loud)
      refine ((onOpen r isOpen).1 (.inr rfl)).trans ((course _ (by exact unforced) (by rfl)).trans ?_)
      rw [one, alone]
      exact congrArg (fun cs => stepped { d with
        calmCount := 0
        calmStart := none
        runs := [{ r with
          last := (s.lane l).nextPosition
          causes := cs
          state :=
            if r.state = .opened ∧ c.repairLimit < (s.lane l).nextPosition - r.first + 1 then .unrepaired .tooLong
            else r.state }] }) r.causes.join_detected
    · obtain ⟨onOpen, -, -⟩ := step false (by rw [threshold]; simpa using calm)
      exact ((onOpen r isOpen).2.1 rfl rfl early).trans (course _ (by exact unforced) (by rfl))
    · obtain ⟨onOpen, -, -⟩ := step false (by rw [threshold]; simpa using calm)
      have queued : RunState.queued =
          (if r.state ≠ .opened then r.state
            else if c.repairLimit < r.last - r.first + 1 then .unrepaired .tooLong
            else if r.leftAnchor = none then .unrepaired .noAnchor
            else if 16 ≤ s.repair.queue.length then .unrepaired .queueFull
            else .queued) := by
        rw [if_neg (not_not_intro opened), if_neg (Nat.not_lt.2 short), if_neg anchor, if_neg (Nat.not_le.2 room)]
      refine ((onOpen r isOpen).2.2 rfl rfl last .queued queued).trans ?_
      have joins : r.state = .opened ∧ RunState.queued = RunState.queued := ⟨opened, rfl⟩
      rw [one, alone, if_pos joins, State.releaseRuns_none]
      · simp only [hstepped, State.withLane, Detector.after, unforced]
        rfl
      · have entry := State.lane_withLane_same s l
        intro q hq
        change q ∈ ((s.withLane l _).lane l).det.runs at hq
        change q.growing = true ∨ ((s.withLane l _).lane l).headPosition ≤ q.last
        rw [entry] at hq ⊢
        rw [List.mem_singleton.1 hq]
        exact .inr held

end Sys2Proof.Machine
end

section
/-! The answers to an offered SAMPLES parcel that its lane discards or makes wait (R14 to R19, R86). -/

namespace Sys2Proof.Machine

/-! ### What the offer makes of an answer -/

section
variable {s : State} {x : InParcel} {rest : List InParcel}

theorem exec_offer_of_answer (h : OfferReady s x rest) {a : Answer} {t : State} (answer : s.answer x = (a, t)) :
    exec .offer s = .next (t.actOn a) := by
  rw [exec_offer h, answer]

theorem exec_offer_waits (h : OfferReady s x rest) (answer : s.answer x = (.wait, s)) :
    exec .offer s = .next { s with intake := { s.intake with headWaiting := true } } :=
  exec_offer_of_answer h answer

theorem exec_offer_discards (h : OfferReady s x rest) {l : LaneId} {f : Lane → Lane}
    (answer : s.answer x = (.discard, s.modLane l f)) :
    exec .offer s = .next (s.headActedOn l (f (s.lane l)) rest .discards) :=
  (exec_offer_of_answer h answer).trans (congrArg _ (State.dequeue_modLane s h.2.1 l f .discards))

/-- A parcel is discarded with a notice. -/
theorem exec_offer_refuses (h : OfferReady s x rest) {l : LaneId} {f : Lane → Lane} {n : Notice}
    (answer : s.answer x = (.discard, (s.modLane l f).issue n)) :
    exec .offer s = .next ((s.headActedOn l (f (s.lane l)) rest .discards).issue n) :=
  (exec_offer_of_answer h answer).trans
    (congrArg (fun t : State => Host.Outcome.next (t.issue n)) (State.dequeue_modLane s h.2.1 l f .discards))

end

/-! ### The row of each lane state -/

section
variable {s : State} {l : LaneId} {n : SeqNum} {ws : List Sample}

/-- A parcel too long for its lane is discarded in every state that takes parcels (R18). -/
theorem State.answer_oversize (long : (s.lane l).config.parcelLimit < ws.length)
    (row : ((s.lane l).state = .armed ∧ (s.lane l).config.startOption = .atNextParcel) ∨ (s.lane l).state = .stalled
      ∨ (s.lane l).state = .running false) :
    s.answer (.samples l n ws) = (.discard, s.oversize l n ws.length) := by
  have starts (resumed : Bool) : s.startWith l n ws resumed = (.discard, s.oversize l n ws.length) := if_pos long
  change s.answerSamples l n ws = _
  unfold State.answerSamples
  rcases row with ⟨armed, option⟩ | stalled | running
  · rw [armed]
    dsimp only
    rw [option]
    exact starts false
  · rw [stalled]
    exact starts true
  · rw [running]
    exact if_pos long

/-- A parcel that passes its tests on a RUNNING lane is taken or waits (R15). -/
theorem State.answer_running (running : (s.lane l).state = .running false)
    (short : ws.length ≤ (s.lane l).config.parcelLimit) (inOrder : (s.lane l).inOrder n) :
    s.answer (.samples l n ws) = s.takeOrWait l n ws := by
  have ahead : ¬(s.lane l).behind n = true := fun h => (Lane.behind_iff _ n).1 h inOrder
  change s.answerSamples l n ws = _
  unfold State.answerSamples
  rw [running]
  dsimp only [State.answerRunning]
  rw [if_neg (Nat.not_lt.2 short), if_neg ahead]

theorem State.answer_outOfOrder (running : (s.lane l).state = .running false)
    (short : ws.length ≤ (s.lane l).config.parcelLimit) (behind : ¬(s.lane l).inOrder n) :
    s.answer (.samples l n ws) = (.discard, s.outOfOrder l n) := by
  change s.answerSamples l n ws = _
  unfold State.answerSamples
  rw [running]
  dsimp only [State.answerRunning]
  rw [if_neg (Nat.not_lt.2 short), if_pos ((Lane.behind_iff _ n).2 behind)]

/-- A parcel of the right length on an ARMED (AT_NEXT_PARCEL) or STALLED lane starts it, or waits for a place (R15). -/
theorem State.answer_starting (short : ws.length ≤ (s.lane l).config.parcelLimit)
    (row : ((s.lane l).state = .armed ∧ (s.lane l).config.startOption = .atNextParcel) ∨ (s.lane l).state = .stalled) :
    s.answer (.samples l n ws) =
      if (s.lane l).config.route = .echo ∧ s.sampleRoom = false then (.wait, s)
      else (.take, (s.enterRunning l).takeParcel l n ws (decide ((s.lane l).state = .stalled))) := by
  have starts (resumed : Bool) : s.startWith l n ws resumed =
      if (s.lane l).config.route = .echo ∧ s.sampleRoom = false then (.wait, s)
      else (.take, (s.enterRunning l).takeParcel l n ws resumed) := if_neg (Nat.not_lt.2 short)
  change s.answerSamples l n ws = _
  unfold State.answerSamples
  rcases row with ⟨armed, option⟩ | stalled
  · rw [armed]
    dsimp only
    rw [option]
    exact starts false
  · rw [stalled]
    exact starts true

/-- The offer to a full lane waits when no deadline arises (R73, R86). -/
theorem State.takeOrWait_full (full : (s.lane l).allocation < (s.lane l).occupancy + ws.length)
    (route : (s.lane l).config.route ≠ .echo ∧ (s.lane l).config.route ≠ .check)
    (stuck : (s.lane l).deadlineRun? ws.length = none) : s.takeOrWait l n ws = (.wait, s) := by
  have none : State.deadlines (s.lane l).det.runs.length l ws.length s = s := by
    cases (s.lane l).det.runs.length with
    | zero => rfl
    | succ k =>
      unfold State.deadlines
      rw [stuck]
  have noRoom : ¬(s.lane l).room ws.length = true := by
    simpa [Lane.room] using full
  unfold State.takeOrWait
  split
  · exact absurd ‹_› route.2
  · exact absurd ‹_› route.1
  all_goals
    dsimp only
    rw [none, if_neg noRoom]

end

/-- The head run of a full lane is given up only if the head sample is due, lies in a run that blocks it and can be taken
(R86). -/
theorem Lane.deadlineRun?_eq_none {ln : Lane} {c : Nat} (running : ln.state = .running false)
    (h : ∀ (p : HeldParcel) (ps : List HeldParcel) (x : Nat), ln.held = p :: ps →
      x = p.firstPosition + p.departed → ln.config.lookahead ≤ ln.nextPosition - 1 - x →
      (∀ b ms f, ln.assembly ≠ .complete b ms f) →
        ∀ r ∈ ln.det.runs, r.first ≤ x → x ≤ r.last → r.state ≠ .queued ∧ r.state ≠ .repairing) :
    ln.deadlineRun? c = none := by
  unfold Lane.deadlineRun?
  split
  · rename_i arises
    simp only [Bool.and_eq_true, Lane.due_iff, Assembly.canTake_iff] at arises
    obtain ⟨⟨⟨-, held⟩, due⟩, takes⟩ := arises
    cases line : ln.held with
    | nil => simp [line] at held
    | cons p ps =>
      have head : ln.headPosition = p.firstPosition + p.departed := by unfold Lane.headPosition; rw [line]
      have late := due.resolve_left (by rw [running]; exact Bool.false_ne_true)
      rw [← Option.isNone_iff_eq_none, Lane.blockingRun?_isNone]
      exact h p ps _ line head late takes
  · rfl

/-- Settles O23, a case for each row of R15. -/
theorem offeredSamplesAreDiscardedOrWait : Obligations.OfferedSamplesAreDiscardedOrWait := by
  unfold Obligations.OfferedSamplesAreDiscardedOrWait
  intro s l n ws rest ln ready hln
  subst hln
  refine ⟨fun idle => ?_, fun armed option => ?_, fun taking => ⟨fun long => ?_, fun short inOrder echo full => ?_⟩,
    fun running short => ⟨fun behind => ?_, fun inOrder notEcho notCheck full stuck => ?_⟩, fun waits => ?_⟩
  · refine exec_offer_discards ready (f := fun x => x.counted .unclaimed 1) ?_
    change s.answerSamples l n ws = _
    unfold State.answerSamples
    rcases idle with off | draining
    · rw [off]
      rfl
    · rw [draining]
      rfl
  · refine exec_offer_discards ready (f := fun x => x.counted .armedDiscards 1) ?_
    change s.answerSamples l n ws = _
    unfold State.answerSamples
    rw [armed]
    exact if_pos option
  · exact exec_offer_refuses ready (State.answer_oversize long taking)
  · have noRoom : s.sampleRoom = false := by
      rw [← Bool.not_eq_true, State.sampleRoom_iff]
      omega
    refine exec_offer_waits ready ?_
    rcases taking with armed | stalled | running
    · rw [State.answer_starting short (.inl armed), if_pos ⟨echo, noRoom⟩]
    · rw [State.answer_starting short (.inr stalled), if_pos ⟨echo, noRoom⟩]
    · rw [State.answer_running running short (inOrder running)]
      unfold State.takeOrWait
      rw [echo, noRoom]
      rfl
  · exact exec_offer_refuses ready (State.answer_outOfOrder running short behind)
  · refine exec_offer_waits ready ((State.answer_running running short inOrder).trans ?_)
    exact State.takeOrWait_full full ⟨notEcho, notCheck⟩ (Lane.deadlineRun?_eq_none running stuck)
  · refine exec_offer_waits ready ?_
    change s.answerSamples l n ws = _
    unfold State.answerSamples
    rcases waits with pending | draining
    · rw [pending]
    · rw [draining]

end Sys2Proof.Machine
end

section
/-! OFFER of a SAMPLES parcel that an ECHO or a CHECK lane takes (R17, R128). -/

namespace Sys2Proof.Machine

/-! ### The checker works beside the intake port -/

/-- The part with another intake port. -/
def State.withIntake (s : State) (p : IntakePort) : State := { s with intake := p }

theorem State.countCheckedWord_withIntake (s : State) (p : IntakePort) :
    (s.withIntake p).countCheckedWord = s.countCheckedWord.withIntake p := by
  unfold State.countCheckedWord State.withIntake
  dsimp only
  split
  · rfl
  · split <;> rfl

theorem State.countCheckedError_withIntake (s : State) (p : IntakePort) :
    (s.withIntake p).countCheckedError = s.countCheckedError.withIntake p := by
  unfold State.countCheckedError State.withIntake
  dsimp only
  split
  · rfl
  · split <;> rfl

theorem State.checkerSearch_withIntake (s : State) (p : IntakePort) (n : SeqNum) (d : Word) :
    (s.withIntake p).checkerSearch n d = (s.checkerSearch n d).withIntake p := by
  unfold State.checkerSearch State.withIntake
  dsimp only
  split <;> rfl

theorem State.checkerCompare_withIntake (s : State) (p : IntakePort) (n : SeqNum) (w e : Word) (h : List CheckResult) :
    (s.withIntake p).checkerCompare n w e h = (s.checkerCompare n w e h).withIntake p := by
  have state (st : CheckerState) : (s.withIntake p).setCheckerState st = (s.setCheckerState st).withIntake p := rfl
  have setting : (s.withIntake p).checker = s.checker := rfl
  unfold State.checkerCompare
  dsimp only
  rw [setting, state, State.countCheckedWord_withIntake, State.countCheckedError_withIntake]
  by_cases differs : (if w = e then CheckResult.matched else .mismatched) = .mismatched
  · rw [if_pos differs, if_pos differs, State.checkerSearch_withIntake]
    exact (apply_ite (fun t => State.withIntake t p) _ _ _).symm
  · rw [if_neg differs, if_neg differs, State.checkerSearch_withIntake]
    exact (apply_ite (fun t => State.withIntake t p) _ _ _).symm

theorem State.checkerWord_withIntake (s : State) (p : IntakePort) (n : SeqNum) (w : Word) :
    (s.withIntake p).checkerWord n w = (s.checkerWord n w).withIntake p := by
  have same : (s.withIntake p).checker = s.checker := rfl
  unfold State.checkerWord
  rw [same]
  cases s.checker.state with
  | search => rfl
  | verify e k =>
    dsimp only
    split
    · split <;> rfl
    · rfl
  | locked e h => exact s.checkerCompare_withIntake p n w e h

theorem State.checkerWords_withIntake (p : IntakePort) (n : SeqNum) : ∀ (ws : List Word) (s : State),
    ws.foldl (fun t w => t.checkerWord n w) (s.withIntake p)
      = (ws.foldl (fun t w => t.checkerWord n w) s).withIntake p
  | [], _ => rfl
  | w :: ws, s => by
    rw [List.foldl_cons, State.checkerWord_withIntake, State.checkerWords_withIntake p n ws, List.foldl_cons]

/-! ### A parcel that does not enter a hold line -/

section
variable {s : State} {l : LaneId} {n : SeqNum}

/-- The continuity step, the positions and the counts of a parcel that an ECHO or CHECK lane takes (R17, R19). -/
def State.passed (s : State) (l : LaneId) (n : SeqNum) (k : Nat) : State :=
  ((s.continuity l n).modLane l fun ln => ln.advance k).countEntered l k

theorem State.takeEcho_eq (s : State) (l : LaneId) (n : SeqNum) (ws : List Sample) (resumed : Bool) :
    s.takeEcho l n ws resumed =
      (s.passed l n ws.length).pushSample (.samples l (SampleFlags.echo resumed) n ws) := rfl

theorem State.passed_eq {d : Nat} (inOrder : (s.lane l).inOrder n) (gap : d = (s.lane l).gapBefore n) (k : Nat) :
    s.passed l n k = (s.withLane l ((s.lane l).parcelCounted n k d)).gapNoticed l n d := by
  unfold State.passed State.continuity State.gapNoticed
  rw [Lane.missing_eq inOrder, ← gap]
  by_cases none : d = 0
  · dsimp only
    rw [if_pos none, if_pos none]
    simp only [State.countEntered, State.modLane_eq_withLane, State.count_eq_withLane, State.lane_withLane_same,
      State.withLane_withLane, Lane.parcelCounted, none, if_true]
    rfl
  · dsimp only
    rw [if_neg none, if_neg none]
    simp only [State.countEntered, State.gapFound, State.modLane_eq_withLane, State.count_eq_withLane,
      State.issue_withLane, State.lane_withLane_same, State.withLane_withLane, Lane.parcelCounted, none, if_false]
    rfl

/-- The head leaves the intake queue beside the notice of a gap. -/
theorem State.headTaken_gapNoticed {x : InParcel} {rest : List InParcel} (h : s.intake.queue = x :: rest) (ln : Lane)
    (d : Nat) :
    ((s.withLane l ln).gapNoticed l n d).withIntake (((s.withLane l ln).gapNoticed l n d).intake.dequeue .taken)
      = (s.headActedOn l ln rest .taken).gapNoticed l n d := by
  have intake : ((s.withLane l ln).gapNoticed l n d).intake = s.intake := by
    unfold State.gapNoticed
    split <;> rfl
  rw [intake, IntakePort.dequeue_eq _ h]
  unfold State.gapNoticed
  split <;> rfl

end

theorem State.takeCheck_eq {s : State} {l : LaneId} {n : SeqNum} {d : Nat} (inOrder : (s.lane l).inOrder n)
    (gap : d = (s.lane l).gapBefore n) (ws : List Sample) :
    s.takeCheck l n ws =
      (if d = 0 then s.passed l n ws.length else (s.passed l n ws.length).checkerLoss l n 2).checkerParcel l n ws := by
  unfold State.takeCheck
  rw [Lane.missing_eq inOrder, ← gap]
  by_cases none : d = 0
  · simp [none, State.passed]
  · simp [none, State.passed]

/-- A gap returns a checker attached to the lane to SEARCH, a LOCKED one with CHECK_LOST detail 2 (R128). -/
theorem State.checkerLoss_of_attached {s : State} {l : LaneId} (own : s.checker.lane = some l) (n : SeqNum) :
    s.checkerLoss l n 2 =
      if s.checker.state.isLocked = true then
        State.issue { s with checker := { s.checker with state := .search } } (noticeOf .checkLost (some l) n 2)
      else { s with checker := { s.checker with state := .search } } := by
  unfold State.checkerLoss State.checkerSearch Checker.notice
  rw [if_pos own, own]
  rfl

/-- The words of a parcel given to the checker, and the head's leaving the intake queue (R123, R139). -/
theorem State.actOn_checkerParcel {s : State} {l : LaneId} (own : s.checker.lane = some l) (n : SeqNum)
    (ws : List Sample) :
    (s.checkerParcel l n ws).actOn .take
      = ws.foldl (fun u w => u.checkerWord n w) (s.withIntake (s.intake.dequeue .taken)) := by
  have kept : (s.checkerParcel l n ws).intake = s.intake := by rw [(s.checkerParcel_only l n ws).1]
  change (s.checkerParcel l n ws).withIntake ((s.checkerParcel l n ws).intake.dequeue .taken) = _
  rw [State.checkerWords_withIntake, kept]
  unfold State.checkerParcel
  rw [if_pos own]

/-- Settles O24: the counts and the positions first, then the copy into the sample queue or the checker's words. -/
theorem echoAndCheckLanesTakeParcels : Obligations.EchoAndCheckLanesTakeParcels := by
  unfold Obligations.EchoAndCheckLanesTakeParcels
  intro s l n ws rest t d ready running short inOrder gap ht
  have answer := State.answer_running running short inOrder
  have taken := State.headTaken_gapNoticed (l := l) (n := n) (d := d) ready.2.1 ((s.lane l).parcelCounted n ws.length d)
  rw [← State.passed_eq inOrder gap, ← ht] at taken
  have attached : (s.passed l n ws.length).checker = s.checker := by
    rw [State.passed_eq inOrder gap]
    unfold State.gapNoticed
    split <;> rfl
  have checks (check : (s.lane l).config.route = .check) :
      exec .offer s = .next ((s.takeCheck l n ws).actOn .take) := by
    refine exec_offer_of_answer ready (answer.trans ?_)
    unfold State.takeOrWait State.takeParcel
    rw [check]
  refine ⟨fun echo room => ?_, fun check away => ?_, fun check own => ?_⟩
  · have free := s.sampleRoom_iff.2 room
    have samples : t.delivery.samples = s.delivery.samples := by
      rw [ht]
      unfold State.gapNoticed
      split
      · rfl
      · exact DeliveryPort.samples_issue _ _
    have copied : s.takeOrWait l n ws = (.take, s.takeEcho l n ws false) := by
      unfold State.takeOrWait State.takeParcel
      rw [echo]
      exact if_pos free
    refine (exec_offer_of_answer ready (answer.trans copied)).trans (congrArg _ ?_)
    rw [State.takeEcho_eq, ← samples, ← taken]
    rfl
  · rw [checks check, State.takeCheck_eq inOrder gap, ← taken]
    unfold State.checkerParcel State.checkerLoss
    rw [attached, if_neg away, ite_self, attached, if_neg away]
    rfl
  · have ownPassed : (s.passed l n ws.length).checker.lane = some l := by rw [attached, own]
    have begun (u : State) (same : u.checker.lane = some l) (intake : u.intake = (s.passed l n ws.length).intake) :
        (u.checkerParcel l n ws).actOn .take = ws.foldl (fun u w => u.checkerWord n w)
          (u.withIntake ((s.passed l n ws.length).intake.dequeue .taken)) := by
      rw [State.actOn_checkerParcel same, intake]
    rw [checks check, State.takeCheck_eq inOrder gap]
    by_cases none : d = 0
    · rw [if_pos none, if_pos none, begun _ ownPassed rfl, taken]
    · have lost := State.checkerLoss_only (s.passed l n ws.length) l n 2
      rw [if_neg none, if_neg none, begun _ (lost.2.trans ownPassed) (by rw [lost.1]),
        State.checkerLoss_of_attached ownPassed, attached, ← taken]
      by_cases locked : s.checker.state.isLocked = true
      · rw [if_pos locked, if_pos locked]
        rfl
      · rw [if_neg locked, if_neg locked]
        rfl

end Sys2Proof.Machine
end

section
/-! The answers to an offered MARK parcel (R20 to R24, R61). -/

namespace Sys2Proof.Machine

/-- The head leaves the intake queue in the event that answers it, whatever has become of head waiting (R139). -/
theorem exec_offer_removes {s t : State} {x : InParcel} {rest : List InParcel} (h : OfferReady s x rest) {a : Answer}
    {c : IntakeCounter} (acted : a = .take ∧ c = .taken ∨ a = .discard ∧ c = .discards) (answer : s.answer x = (a, t))
    {b : Bool} (intake : t.intake = { s.intake with headWaiting := b }) :
    exec .offer s = .next { t with intake := s.intake.headGone rest c } := by
  have gone : t.intake.dequeue c = s.intake.headGone rest c := by
    have queue : ({ s.intake with headWaiting := b } : IntakePort).queue = x :: rest := h.2.1
    rw [intake, IntakePort.dequeue_eq _ queue]
    rfl
  rw [exec_offer_of_answer h answer, ← gone]
  rcases acted with ⟨take, counter⟩ | ⟨discard, counter⟩
  · rw [take, counter]
    rfl
  · rw [discard, counter]
    rfl

section
variable {s : State} {l : LaneId} {k : MarkKind} {n : SeqNum} {o : Nat} {v : Word} {rest : List InParcel}

/-- The mark of an offered MARK parcel, as it would join lane l's mark list. -/
abbrev State.offeredMark (s : State) (l : LaneId) (k : MarkKind) (n : SeqNum) (o : Nat) (v : Word) : MarkEntry :=
  markEntry k n o v (s.lane l).config.route

/-! ### The row of each lane state -/

theorem Route.usesHoldLine_iff (r : Route) : r.usesHoldLine = true ↔ r ≠ .echo ∧ r ≠ .check := by
  cases r <;> simp [Route.usesHoldLine]

/-- A mark on its way to the mark list is late when it is a SPLICE on route RESTORE whose parcel has passed (R21, R61). -/
theorem markEntry_late (ln : Lane) (k : MarkKind) (n : SeqNum) (o : Nat) (v : Word) :
    ((markEntry k n o v ln.config.route).pendingSplice && ln.behind n) = true
      ↔ k = .splice ∧ ln.config.route = .restore ∧ ¬ln.inOrder n := by
  rw [Bool.and_eq_true, Lane.behind_iff]
  simp only [markEntry, MarkEntry.pendingSplice, Bool.and_eq_true, decide_eq_true_eq]
  exact ⟨fun ⟨⟨splice, _, restore⟩, behind⟩ => ⟨of_decide_eq_true splice, restore, behind⟩,
    fun ⟨splice, restore, behind⟩ => ⟨⟨decide_eq_true splice, splice, restore⟩, behind⟩⟩

/-- A mark is placed; a late SPLICE is counted and noticed (R21, R61). -/
theorem State.placeMark_late (late : k = .splice ∧ (s.lane l).config.route = .restore ∧ ¬(s.lane l).inOrder n) :
    s.placeMark l (s.offeredMark l k n o v) =
      (s.withLane l
        { ((s.lane l).counted .marksAccepted 1).counted .lateSplices 1 with
          marks := (s.lane l).marks ++ [{ kind := k, seq := n, offset := o, value := v, spanPending := false }] }).issue
        (noticeOf .spliceLate (some l) n 0) := by
  have isLate := (markEntry_late (s.lane l) k n o v).2 late
  unfold State.placeMark
  dsimp only [State.offeredMark]
  have seq : (markEntry k n o v (s.lane l).config.route).seq = n := rfl
  rw [seq, if_pos isLate, if_pos isLate]
  simp only [State.spliceLate, State.modLane_eq_withLane, State.count_eq_withLane, State.lane_withLane_same,
    State.withLane_withLane, State.issue_withLane]
  rfl

theorem State.placeMark_timely (timely : ¬(k = .splice ∧ (s.lane l).config.route = .restore ∧ ¬(s.lane l).inOrder n)) :
    s.placeMark l (s.offeredMark l k n o v) =
      s.withLane l
        { (s.lane l).counted .marksAccepted 1 with
          marks := (s.lane l).marks ++
            [{ kind := k, seq := n, offset := o, value := v
               spanPending := decide (k = .splice ∧ (s.lane l).config.route = .restore) }] } := by
  have isTimely := mt (markEntry_late (s.lane l) k n o v).1 timely
  unfold State.placeMark
  dsimp only [State.offeredMark]
  have seq : (markEntry k n o v (s.lane l).config.route).seq = n := rfl
  rw [seq, if_neg isTimely, if_neg isTimely]
  simp only [State.modLane_eq_withLane, State.count_eq_withLane, State.lane_withLane_same, State.withLane_withLane]
  simp only [markEntry, Bool.decide_and]
  rfl

/-- A RUNNING lane with a hold line answers a mark that starts or ends no reel (R20, R21). -/
theorem State.answer_mark_held (running : (s.lane l).state = .running false)
    (route : (s.lane l).config.route ≠ .echo ∧ (s.lane l).config.route ≠ .check) :
    s.answer (.mark l k n o v) =
      ((s.offerMark l (s.offeredMark l k n o v)).1, (s.offerMark l (s.offeredMark l k n o v)).2.reelEvent l k) := by
  change s.answerMark l (s.offeredMark l k n o v) = _
  unfold State.answerMark State.markRunning
  rw [running]
  exact if_pos ((Route.usesHoldLine_iff _).2 route)

/-- A RUNNING lane on route ECHO or CHECK forwards a mark, or waits for a place (R20). -/
theorem State.answer_mark_passing (running : (s.lane l).state = .running false)
    (route : (s.lane l).config.route = .echo ∨ (s.lane l).config.route = .check) :
    s.answer (.mark l k n o v) =
      if s.sampleRoom then (.take, (s.forwardMark l (s.offeredMark l k n o v)).reelEvent l k) else (.wait, s) := by
  have passes : ¬(s.lane l).config.route.usesHoldLine = true := by
    rw [Route.usesHoldLine_iff]
    rcases route with echo | check
    · exact fun h => h.1 echo
    · exact fun h => h.2 check
  change s.answerMark l (s.offeredMark l k n o v) = _
  unfold State.answerMark State.markRunning
  rw [running]
  exact if_neg passes

theorem State.answer_mark_stalled (stalled : (s.lane l).state = .stalled) :
    s.answer (.mark l k n o v) = s.markStalled l (s.offeredMark l k n o v) := by
  change s.answerMark l (s.offeredMark l k n o v) = _
  unfold State.answerMark
  rw [stalled]

theorem State.offerMark_full (full : 8 ≤ (s.lane l).marks.length) (m : MarkEntry) :
    s.offerMark l m = (.discard, s.loseMark l m) := if_neg (Nat.not_lt.2 full)

theorem State.offerMark_room (room : (s.lane l).marks.length < 8) (m : MarkEntry) :
    s.offerMark l m = (.take, s.placeMark l m) := if_pos room

/-- A mark that is forwarded joins the sample queue with its fields unchanged, and is counted (R20). -/
theorem State.forwardMark_eq (s : State) (l : LaneId) (k : MarkKind) (n : SeqNum) (o : Nat) (v : Word) :
    s.forwardMark l (s.offeredMark l k n o v) =
      (s.pushSample (.mark l k n o v)).withLane l ((s.lane l).counted .marksAccepted 1) := rfl

/-- A mark that starts no reel leaves the hum state, and so does every mark on a route without cancellation (R42). -/
theorem State.reelStartResync_of_route (route : (s.lane l).config.route ≠ .restore) : s.reelStartResync l = s := by
  unfold State.reelStartResync
  dsimp only
  split
  · exact if_neg fun h => route h.1
  · rfl

end

/-- A lane's new state with no leaving of RUNNING, as one change of its entry (R25). -/
theorem State.changeState_withLane {s : State} {l : LaneId} {st : LaneState}
    (h : (s.lane l).state.isRunning = false ∨ st.isRunning = true) :
    ∃ b, s.changeState l st =
      (s.withLane l
        { s.lane l with
          state := st
          timer := if st = .running false then (s.lane l).timer else (s.lane l).timer.stop }).withIntake
        { s.intake with headWaiting := b } := by
  rw [State.changeState_staying s l st h, State.wake_eq]
  unfold State.withIntake
  exact ⟨_, rfl⟩

/-- Settles O30, a case for each row of R20. -/
theorem offeredMarksAreAnswered : Obligations.OfferedMarksAreAnswered := by
  unfold Obligations.OfferedMarksAreAnswered
  intro s l k n o v rest ln forwarded ready hln hforwarded
  subst hln
  have plain (h : k = .splice ∨ k = .speed ∨ k = .cue) (t : State) : t.reelEvent l k = t := by
    rcases h with rfl | rfl | rfl <;> rfl
  have taken {t : State} {b : Bool} (answer : s.answer (.mark l k n o v) = (.take, t))
      (intake : t.intake = { s.intake with headWaiting := b }) :
      exec .offer s = .next { t with intake := s.intake.headGone rest .taken } :=
    exec_offer_removes ready (.inl ⟨rfl, rfl⟩) answer intake
  have noPlace (full : 32 ≤ s.delivery.samples.length) : ¬s.sampleRoom = true := by
    rw [State.sampleRoom_iff]
    omega
  refine ⟨fun idle => ?_, fun armed other => ?_, fun waits => ?_, fun running kind notEcho notCheck => ?_,
    fun passing full => ?_, fun running route other room => ?_,
    fun stalled room => ⟨fun kind => ?_, fun splice => ?_, fun reelEnd => ?_⟩⟩
  · refine exec_offer_discards ready (f := fun x => x.counted .unclaimed 1) ?_
    change s.answerMark l (s.offeredMark l k n o v) = _
    unfold State.answerMark
    rcases idle with off | draining
    · rw [off]
      rfl
    · rw [draining]
      rfl
  · refine exec_offer_discards ready (f := fun x => x.counted .armedDiscards 1) ?_
    change s.answerMark l (s.offeredMark l k n o v) = _
    unfold State.answerMark
    rw [armed]
    exact if_neg other
  · refine exec_offer_waits ready ?_
    change s.answerMark l (s.offeredMark l k n o v) = _
    unfold State.answerMark
    rcases waits with pending | draining
    · rw [pending]
    · rw [draining]
  · have answer := State.answer_mark_held (k := k) (n := n) (o := o) (v := v) running ⟨notEcho, notCheck⟩
    refine ⟨fun full => ?_, fun room late => ?_, fun room timely => ?_⟩
    · rw [State.offerMark_full full, plain kind] at answer
      exact exec_offer_refuses ready (f := fun x => x.counted .markListFull 1) answer
    · rw [State.offerMark_room room, plain kind, State.placeMark_late late] at answer
      exact taken answer rfl
    · rw [State.offerMark_room room, plain kind, State.placeMark_timely timely] at answer
      exact taken answer rfl
  · refine exec_offer_waits ready ?_
    rcases passing with ⟨running, route⟩ | stalled
    · rw [State.answer_mark_passing running route, if_neg (noPlace full)]
    · rw [State.answer_mark_stalled stalled]
      exact if_neg (noPlace full)
  · have answer := State.answer_mark_passing (k := k) (n := n) (o := o) (v := v) running route
    have quiet : (s.forwardMark l (s.offeredMark l k n o v)).reelEvent l k = s.forwardMark l (s.offeredMark l k n o v) := by
      have entry : ((s.forwardMark l (s.offeredMark l k n o v)).lane l).config = (s.lane l).config := by
        rw [State.forwardMark_eq, State.lane_withLane_same]
        rfl
      cases k with
      | reelStart =>
        refine State.reelStartResync_of_route ?_
        rw [entry]
        rcases route with echo | check
        · rw [echo]; exact fun h => nomatch h
        · rw [check]; exact fun h => nomatch h
      | reelEnd => exact absurd rfl other
      | splice => rfl
      | speed => rfl
      | cue => rfl
    rw [if_pos (s.sampleRoom_iff.2 room), quiet, State.forwardMark_eq] at answer
    rw [taken answer (b := s.intake.headWaiting) rfl, hforwarded]
    rfl
  all_goals
    have answer := State.answer_mark_stalled (k := k) (n := n) (o := o) (v := v) stalled
    unfold State.markStalled at answer
    rw [if_pos (s.sampleRoom_iff.2 room)] at answer
    dsimp only at answer
  · rcases kind with rfl | rfl | rfl <;>
    · rw [hforwarded]
      exact taken answer rfl
  · subst splice
    rw [hforwarded]
    change _ = (Answer.take, (s.forwardMark l (s.offeredMark l .splice n o v)).spliceLate l n) at answer
    rw [State.forwardMark_eq] at answer
    unfold State.spliceLate at answer
    rw [State.count_eq_withLane, State.lane_withLane_same, State.withLane_withLane] at answer
    exact taken answer rfl
  · subst reelEnd
    rw [hforwarded]
    change _ = (Answer.take, State.issue ((s.forwardMark l (s.offeredMark l .reelEnd n o v)).changeState l .armed)
      (laneNotice .laneArmed l 0 0)) at answer
    rw [State.forwardMark_eq] at answer
    obtain ⟨b, armed⟩ := State.changeState_withLane (st := .armed)
      (s := (s.pushSample (.mark l .reelEnd n o v)).withLane l ((s.lane l).counted .marksAccepted 1)) (l := l)
      (.inl (by rw [State.lane_withLane_same]; exact congrArg LaneState.isRunning stalled))
    rw [armed, State.lane_withLane_same, State.withLane_withLane] at answer
    exact taken answer (b := b) rfl

end Sys2Proof.Machine
end

section
/-! OFFER of a REEL_START mark (R8, R21, R22, R42), and what a lane's entering RUNNING makes of the part. -/

namespace Sys2Proof.Machine

/-! ### Entering RUNNING -/

/-- The generator after lane x, which stands as `ln`, enters RUNNING (R120). -/
def Generator.enteredBy (g : Generator) (x : LaneId) (ln : Lane) : Generator :=
  if ln.state = .armed ∧ g.lane = some x then { g with next := g.setting.first } else g

/-- The part after lane l enters RUNNING from ARMED or STALLED: its entry is started, the generator attached to an ARMED
lane begins its sequence again, and a waiting head of the lane is offered again (R8, R120, R140). -/
theorem State.enterRunning_eq (s : State) (l : LaneId) :
    s.enterRunning l =
      { s with
        lanes := s.lanes.set l (s.lane l).started
        generator := s.generator.enteredBy l (s.lane l)
        intake := s.intake.offeredAgain l } := by
  have entered (u : State) (p : IntakePort) (x : Lane) (f : Lane → Lane) :
      ((u.withLane l x).withIntake p).modLane l f = (u.withLane l (f x)).withIntake p := by
    rw [State.modLane_eq_withLane]
    have entry : ((u.withLane l x).withIntake p).lane l = x := State.lane_withLane_same u l x
    rw [entry]
    exact congrArg (fun t => State.withIntake t p) (State.withLane_withLane u l x (f x))
  have changed : s.changeState l (.running false) =
      (s.withLane l { s.lane l with state := .running false }).withIntake (s.intake.offeredAgain l) := by
    rw [State.changeState_staying s l (.running false) (.inr rfl), State.wake_offeredAgain]
    simp only [if_true]
    rfl
  unfold State.enterRunning Generator.enteredBy
  dsimp only
  rw [changed, entered]
  by_cases armed : (s.lane l).state = .armed
  · rw [if_pos (decide_eq_true armed), entered]
    unfold State.generatorReel
    have started : Lane.freshReel (Lane.reloadTimer
        { s.lane l with state := .running false, expected := none, det := (s.lane l).det.clearHistory })
        = (s.lane l).started := by
      simp [Lane.started, armed, Lane.freshReel, Lane.reloadTimer, Detector.clearHistory]
    rw [started]
    by_cases own : s.generator.lane = some l
    · have both : (s.lane l).state = .armed ∧ s.generator.lane = some l := ⟨armed, own⟩
      rw [if_pos both]
      exact if_pos own
    · have neither : ¬((s.lane l).state = .armed ∧ s.generator.lane = some l) := fun h => own h.2
      rw [if_neg neither]
      exact if_neg own
  · rw [if_neg (by simpa using armed), if_neg fun h => armed h.1]
    have started : Lane.reloadTimer
        { s.lane l with state := .running false, expected := none, det := (s.lane l).det.clearHistory }
        = (s.lane l).started := by
      simp [Lane.started, armed, Lane.reloadTimer, Detector.clearHistory]
    rw [started]
    rfl

/-! ### A REEL_START mark on a RUNNING lane -/

/-- The hum state of a lane entry x after a REEL_START mark: restart pending where its profile calls for it (R42). -/
def State.humAtReel (s : State) (x : Lane) : LaneHum :=
  { x.hum with
    restart :=
      x.hum.restart
        || decide (x.config.route = .restore
          ∧ ∃ k : ProfileId, x.config.humProfile = some k ∧ (s.profile k).resync = .reelStart) }

theorem State.reelStartResync_eq (s : State) (l : LaneId) :
    s.reelStartResync l = s.withLane l { s.lane l with hum := s.humAtReel (s.lane l) } := by
  have kept (no : ¬((s.lane l).config.route = .restore
      ∧ ∃ k : ProfileId, (s.lane l).config.humProfile = some k ∧ (s.profile k).resync = .reelStart)) :
      s = s.withLane l { s.lane l with hum := s.humAtReel (s.lane l) } := by
    rw [State.humAtReel, decide_eq_false no, Bool.or_false]
    exact (State.withLane_self s l).symm
  unfold State.reelStartResync
  dsimp only
  split
  · rename_i k profile
    split
    · rename_i calls
      have restarts : (s.lane l).config.route = .restore
          ∧ ∃ k : ProfileId, (s.lane l).config.humProfile = some k ∧ (s.profile k).resync = .reelStart :=
        ⟨calls.1, k, profile, calls.2⟩
      rw [State.humAtReel, decide_eq_true restarts, Bool.or_true]
      rfl
    · rename_i quiet
      refine kept fun ⟨route, j, named, resync⟩ => quiet ⟨route, ?_⟩
      rw [profile] at named
      rw [Option.some_inj.1 named]
      exact resync
  · rename_i none
    refine kept fun ⟨_, j, named, _⟩ => ?_
    rw [none] at named
    exact nomatch named

section
variable {s u : State} {l : LaneId} {n : SeqNum} {o : Nat} {v : Word} {rest : List InParcel}

/-- A RUNNING lane with a hold line takes a REEL_START mark into its mark list (R21, R42). -/
theorem State.markRunning_reelStart_room (route : (u.lane l).config.route ≠ .echo ∧ (u.lane l).config.route ≠ .check)
    (room : (u.lane l).marks.length < 8) :
    u.markRunning l (markEntry .reelStart n o v (u.lane l).config.route) =
      (.take,
        u.withLane l
          { (u.lane l).counted .marksAccepted 1 with
            marks := (u.lane l).marks ++ [{ kind := .reelStart, seq := n, offset := o, value := v, spanPending := false }]
            hum := u.humAtReel (u.lane l) }) := by
  have placed := State.placeMark_timely (s := u) (l := l) (k := .reelStart) (n := n) (o := o) (v := v)
    fun h => nomatch h.1
  unfold State.markRunning
  rw [if_pos ((Route.usesHoldLine_iff _).2 route), State.offerMark_room room, placed]
  refine congrArg (Prod.mk Answer.take) ?_
  change State.reelStartResync _ l = _
  rw [State.reelStartResync_eq, State.lane_withLane_same, State.withLane_withLane]
  rfl

/-- A REEL_START mark that a full mark list loses acts on the hum state all the same (R21, R42). -/
theorem State.markRunning_reelStart_full (route : (u.lane l).config.route ≠ .echo ∧ (u.lane l).config.route ≠ .check)
    (full : 8 ≤ (u.lane l).marks.length) :
    u.markRunning l (markEntry .reelStart n o v (u.lane l).config.route) =
      (.discard,
        (u.withLane l { (u.lane l).counted .markListFull 1 with hum := u.humAtReel (u.lane l) }).issue
          (noticeOf .markListFull (some l) n 1)) := by
  unfold State.markRunning
  rw [if_pos ((Route.usesHoldLine_iff _).2 route), State.offerMark_full full]
  refine congrArg (Prod.mk Answer.discard) ?_
  change State.reelStartResync _ l = _
  have entry : ((u.loseMark l (markEntry .reelStart n o v (u.lane l).config.route)).lane l)
      = (u.lane l).counted .markListFull 1 := State.lane_withLane_same u l _
  rw [State.reelStartResync_eq, entry]
  unfold State.loseMark
  rw [← State.issue_withLane, State.count_eq_withLane, State.withLane_withLane]
  rfl

/-- A RUNNING lane on route ECHO or CHECK forwards a REEL_START mark (R20). -/
theorem State.markRunning_reelStart_passing (route : (u.lane l).config.route = .echo ∨ (u.lane l).config.route = .check)
    (room : u.delivery.samples.length < 32) :
    u.markRunning l (markEntry .reelStart n o v (u.lane l).config.route) =
      (.take, (u.pushSample (.mark l .reelStart n o v)).withLane l ((u.lane l).counted .marksAccepted 1)) := by
  have passes : ¬(u.lane l).config.route.usesHoldLine = true := by
    rw [Route.usesHoldLine_iff]
    rcases route with echo | check
    · exact fun h => h.1 echo
    · exact fun h => h.2 check
  unfold State.markRunning
  rw [if_neg passes, if_pos (u.sampleRoom_iff.2 room)]
  refine congrArg (Prod.mk Answer.take) ?_
  change State.reelStartResync _ l = _
  rw [State.forwardMark_eq]
  refine State.reelStartResync_of_route ?_
  rw [State.lane_withLane_same]
  change (u.lane l).config.route ≠ .restore
  rcases route with echo | check
  · rw [echo]
    exact fun h => nomatch h
  · rw [check]
    exact fun h => nomatch h

/-! ### A REEL_START mark on an ARMED lane -/

/-- A REEL_START mark starts an ARMED lane, which then takes it as a RUNNING lane does; without a place for it the mark
waits (R20, R22). -/
theorem State.answer_reelStart_armed (armed : (s.lane l).state = .armed) :
    s.answer (.mark l .reelStart n o v) =
      if (s.lane l).config.route.usesHoldLine || s.sampleRoom then
        (s.enterRunning l).markRunning l (markEntry .reelStart n o v (s.lane l).config.route)
      else (.wait, s) := by
  change s.answerMark l (s.offeredMark l .reelStart n o v) = _
  unfold State.answerMark
  rw [armed]
  exact if_pos rfl

theorem State.enterRunning_withLane (s : State) (l : LaneId) (x : Lane) :
    (s.enterRunning l).withLane l x =
      { s with
        lanes := s.lanes.set l x
        generator := s.generator.enteredBy l (s.lane l)
        intake := s.intake.offeredAgain l } := by
  rw [State.enterRunning_eq]
  unfold State.withLane
  rw [Vector.set_set]

theorem State.lane_enterRunning_same (s : State) (l : LaneId) : (s.enterRunning l).lane l = (s.lane l).started := by
  rw [State.lane_enterRunning, if_pos rfl]

/-- Entering RUNNING calls for the same restart of the hum phase as before (R42). -/
theorem State.humAtReel_enterRunning (s : State) (l : LaneId) (x : Lane) :
    (s.enterRunning l).humAtReel x = s.humAtReel x := by
  rw [State.enterRunning_eq]
  rfl

end

/-- Settles O32: the lane enters RUNNING, and takes the mark as a RUNNING lane does. -/
theorem reelStartStartsAnArmedLane : Obligations.ReelStartStartsAnArmedLane := by
  unfold Obligations.ReelStartStartsAnArmedLane
  refine ⟨fun s l n o v rest ln ready hln armed notEcho notCheck room => ?_,
    fun s l n o v rest ln g ready hln armed hg =>
      ⟨fun notEcho notCheck full => ?_, fun passes => ⟨fun room => ?_, fun full => ?_⟩⟩⟩
  all_goals
    subst hln
    have answer := State.answer_reelStart_armed (n := n) (o := o) (v := v) armed
    have entry := s.lane_enterRunning_same l
    have config : ((s.enterRunning l).lane l).config = (s.lane l).config := by rw [entry]; rfl
  · have holds := (Route.usesHoldLine_iff _).2 ⟨notEcho, notCheck⟩
    have placed := State.markRunning_reelStart_room (u := s.enterRunning l) (l := l) (n := n) (o := o) (v := v)
      (by rw [config]; exact ⟨notEcho, notCheck⟩) (by rw [entry]; exact room)
    rw [config, State.enterRunning_withLane, entry, State.humAtReel_enterRunning] at placed
    rw [holds, Bool.true_or, if_pos rfl, placed] at answer
    refine (exec_offer_removes ready (.inl ⟨rfl, rfl⟩) answer (b := _) rfl).trans ?_
    simp only [Lane.started, armed, if_true, Generator.enteredBy, true_and]
    rfl
  · have holds := (Route.usesHoldLine_iff _).2 ⟨notEcho, notCheck⟩
    have lost := State.markRunning_reelStart_full (u := s.enterRunning l) (l := l) (n := n) (o := o) (v := v)
      (by rw [config]; exact ⟨notEcho, notCheck⟩) (by rw [entry]; exact full)
    rw [config, State.enterRunning_withLane, entry, State.humAtReel_enterRunning] at lost
    rw [holds, Bool.true_or, if_pos rfl, lost] at answer
    refine (exec_offer_removes ready (.inr ⟨rfl, rfl⟩) answer (b := _) rfl).trans ?_
    simp only [hg, armed, Generator.enteredBy, true_and]
    rfl
  · have delivery : (s.enterRunning l).delivery = s.delivery := by rw [State.enterRunning_eq]
    have forwarded := State.markRunning_reelStart_passing (u := s.enterRunning l) (l := l) (n := n) (o := o) (v := v)
      (by rw [config]; exact passes) (by rw [delivery]; exact room)
    have pushed (p : OutParcel) (x : Lane) :
        ((s.enterRunning l).pushSample p).withLane l x = ((s.enterRunning l).withLane l x).pushSample p := rfl
    rw [config, pushed, State.enterRunning_withLane, entry] at forwarded
    rw [s.sampleRoom_iff.2 room, Bool.or_true, if_pos rfl, forwarded] at answer
    refine (exec_offer_removes ready (.inl ⟨rfl, rfl⟩) answer (b := _) rfl).trans ?_
    simp only [hg, armed, Generator.enteredBy, true_and]
    rfl
  · have holds : (s.lane l).config.route.usesHoldLine = false := by
      rcases passes with echo | check
      · rw [echo]; rfl
      · rw [check]; rfl
    have noRoom : s.sampleRoom = false := by
      rw [← Bool.not_eq_true, State.sampleRoom_iff]
      omega
    rw [holds, noRoom] at answer
    exact exec_offer_waits ready answer

end Sys2Proof.Machine
end

section
/-! The entry of a SAMPLES parcel into a hold line, step by step (R16, R19, R57 to R64, R70). -/

namespace Sys2Proof.Machine

section
variable {s : State} {l : LaneId} {n : SeqNum} {ws : List Sample} {resumed : Bool} {d : Nat}

/-! ### The level watch and the continuity step -/

/-- The level watch raises at most a counter of the lane (R63). -/
theorem State.lane_levelNoticed (s : State) (l : LaneId) (n : SeqNum) (ws : List Sample) :
    ∃ c, (s.levelNoticed l n ws).lane l = { s.lane l with counters := c } := by
  unfold State.levelNoticed
  split
  · exact ⟨_, State.lane_withLane_same s l _⟩
  · exact ⟨_, rfl⟩

theorem State.missing_levelNoticed (s : State) (l : LaneId) (n m : SeqNum) (ws : List Sample) :
    ((s.levelNoticed l n ws).lane l).inOrder m = (s.lane l).inOrder m
      ∧ ((s.levelNoticed l n ws).lane l).gapBefore m = (s.lane l).gapBefore m := by
  obtain ⟨c, entry⟩ := s.lane_levelNoticed l n ws
  rw [entry]
  exact ⟨rfl, rfl⟩

/-- The expectation after the continuity step (R19). -/
theorem State.expected_gapFollowed (s : State) (l : LaneId) (n : SeqNum) (d : Nat) :
    ((s.gapFollowed l n d).lane l).expected = some (n + 1) := by
  unfold State.gapFollowed
  dsimp only
  rw [State.lane_withLane_same]

/-- The SPLICE marks of a parcel may be resolved before its continuity step or after it (R19, R60). -/
theorem State.continuity_resolveSplices (s : State) (l : LaneId) (n m : SeqNum) :
    (s.continuity l n).modLane l (fun ln => ln.resolveSplices m)
      = (s.modLane l fun ln => ln.resolveSplices m).continuity l n := by
  unfold State.continuity
  rw [State.lane_modLane_same, Lane.missing_resolveSplices]
  by_cases none : (s.lane l).missing n = 0
  · simp only [none, if_true, State.modLane_eq_withLane, State.lane_withLane_same, State.withLane_withLane]
    rfl
  · simp only [none, if_false, State.gapFound, State.count_eq_withLane, State.modLane_eq_withLane,
      State.lane_withLane_same, State.withLane_withLane, State.issue_withLane]
    rfl

/-! ### The entry on each route -/

theorem State.countEntered_eq (s : State) (l : LaneId) (count : Nat) : s.countEntered l count = s.entryCounted l count := by
  unfold State.countEntered State.entryCounted
  rw [State.count_eq_withLane, State.count_eq_withLane, State.lane_withLane_same, State.withLane_withLane]

/-- The open run is cut, the history cleared and the last entered value set (R57, R70). -/
theorem State.modDet_plainEntry (t : State) (l : LaneId) (ws : List Sample) :
    (t.modDet l fun d => d.plainEntry ws) =
      t.withLane l
        { t.lane l with
          det :=
            { h1 := 0, h2 := 0, valid := 0, lastEntered := ws.getLast?, calmCount := 0, calmStart := none
              forcedRemainder := 0
              forcedCauses := { detected := false, splice := false, junction := false, conceal := false }
              runs := (t.lane l).det.runs.map fun (r : RunRecord) =>
                if r.growing = true then
                  { r with growing := false, state := if r.state = .opened then .unrepaired .noAnchor else r.state }
                else r } } := rfl

/-- The entry of a parcel on route RESTORE is made of the steps the statements name, and departure follows (R16, R78). -/
theorem State.enterRestore_eq (inOrder : (s.lane l).inOrder n) (gap : d = (s.lane l).gapBefore n) (ws : List Sample)
    (resumed : Bool) : s.enterRestore l n ws resumed = (s.restoreEntered l n ws resumed d).depart l := by
  have watched := s.missing_levelNoticed l n n ws
  have missing : (s.lane l).missing n = d := by rw [Lane.missing_eq inOrder, gap]
  have followed : ((s.watch l n ws).modLane l fun ln => ln.resolveSplices n).continuity l n
      = (s.levelNoticed l n ws).gapFollowed l n d := by
    rw [State.watch_eq, State.continuity_eq (by rw [watched.1]; exact inOrder), watched.2, gap]
  have begun : s.prepareRestore l ((s.lane l).entryPlan n ws resumed) ws =
      State.humBegin
        (State.lateMarksFound
          (if d = 0 then (s.levelNoticed l n ws).gapFollowed l n d
          else
            ((s.levelNoticed l n ws).gapFollowed l n d).modDet l Detector.clearHistory) l n)
        l (s.lane l).config.humProfile n := by
    have expected : ∀ t : State, (t.lane l).expected = some (n + 1) →
        ((if d = 0 then t else t.modDet l Detector.clearHistory).lane l).expected = some (n + 1) := by
      intro t h
      split
      · exact h
      · rw [State.modDet_eq_withLane, State.lane_withLane_same]
        exact h
    unfold State.prepareRestore Lane.entryPlan
    dsimp only
    rw [followed, missing]
    by_cases none : d = 0
    · have found := State.lateMarks_eq (expected _ (State.expected_gapFollowed (s.levelNoticed l n ws) l n d))
      simp only [none, if_true, ne_eq, not_true_eq_false, decide_false, Bool.false_eq_true, if_false] at found ⊢
      rw [found]
    · have found := State.lateMarks_eq (expected _ (State.expected_gapFollowed (s.levelNoticed l n ws) l n d))
      simp only [none, if_false, ne_eq, not_false_eq_true, decide_true, if_true] at found ⊢
      rw [found]
  unfold State.enterRestore State.restoreEntered
  dsimp only
  have spans : ((s.lane l).entryPlan n ws resumed).spansAt =
      (s.lane l).config.spansAt
        ((s.lane l).config.levelHit ws && decide ((s.lane l).config.watchAction = .conceal)) (decide (d ≠ 0))
        ((s.lane l).spliceSamples n ws.length) ws.length := by
    funext i
    rw [EntryPlan.spansAt_eq, ← missing, ← Lane.spliceOffsets_eq, LaneConfig.levelHit_eq]
    rfl
  have splices : ((s.lane l).entryPlan n ws resumed).spliceOffsets = (s.lane l).spliceSamples n ws.length :=
    Lane.spliceOffsets_eq _ _ _
  rw [begun, State.enterSamples_eq, spans, splices]
  rw [State.countEntered_eq]
  rfl

/-- The entry of a parcel on route PASS, MUTE or GENERATE is made of the steps the statements name (R16, R70, R78). -/
theorem State.enterPlain_eq (inOrder : (s.lane l).inOrder n) (gap : d = (s.lane l).gapBefore n) (ws : List Sample)
    (resumed : Bool) : s.enterPlain l n ws resumed = (s.plainEntered l n ws resumed d).depart l := by
  have watched := s.missing_levelNoticed l n n ws
  have followed : ((s.watch l n ws).continuity l n).modLane l (fun ln => ln.resolveSplices n)
      = (s.levelNoticed l n ws).gapFollowed l n d := by
    rw [State.continuity_resolveSplices, State.watch_eq, State.continuity_eq (by rw [watched.1]; exact inOrder), watched.2,
      gap]
  unfold State.enterPlain State.plainEntered
  dsimp only
  rw [followed, State.lateMarks_eq (State.expected_gapFollowed _ l n d)]
  generalize ((s.levelNoticed l n ws).gapFollowed l n d).lateMarksFound l n = t
  rw [State.modDet_plainEntry, State.countEntered_eq, State.modLane_eq_withLane]
  rfl

/-! ### The offer whose parcel enters -/

/-- A RUNNING lane with a hold line and room for the parcel takes it (R15, R73). -/
theorem State.answer_running_enters (running : (s.lane l).state = .running false)
    (short : ws.length ≤ (s.lane l).config.parcelLimit) (inOrder : (s.lane l).inOrder n)
    (route : (s.lane l).config.route ≠ .echo ∧ (s.lane l).config.route ≠ .check)
    (room : (s.lane l).occupancy + ws.length ≤ (s.lane l).allocation) :
    s.answer (.samples l n ws) = (.take, s.takeParcel l n ws false) := by
  have fits : (s.lane l).room ws.length = true := decide_eq_true room
  have stuck : (s.lane l).deadlineRun? ws.length = none := by
    unfold Lane.deadlineRun?
    rw [fits]
    rfl
  have none : State.deadlines (s.lane l).det.runs.length l ws.length s = s := by
    cases (s.lane l).det.runs.length with
    | zero => rfl
    | succ k =>
      unfold State.deadlines
      rw [stuck]
  rw [State.answer_running running short inOrder]
  unfold State.takeOrWait
  split
  · exact absurd ‹_› route.2
  · exact absurd ‹_› route.1
  all_goals
    dsimp only
    rw [none, if_pos fits]

/-- The lanes with a hold line are those on the other four routes. -/
theorem State.takeParcel_of_plain (plain : (s.lane l).config.route ∈ [Route.pass, Route.mute, Route.generate]) :
    s.takeParcel l n ws resumed = s.enterPlain l n ws resumed := by
  unfold State.takeParcel
  cases route : (s.lane l).config.route with
  | pass => rfl
  | mute => rfl
  | generate => rfl
  | restore => simp [route] at plain
  | echo => simp [route] at plain
  | check => simp [route] at plain

/-- The part with lane l RUNNING and the parcel about to enter: as it is for a RUNNING lane, and with the lane started for
an ARMED or STALLED one (R8, R15). -/
theorem exec_offer_enters {rest : List InParcel} {b : State} (ready : OfferReady s (.samples l n ws) rest)
    (short : ws.length ≤ (s.lane l).config.parcelLimit)
    (row : ((s.lane l).state = .running false ∧ (s.lane l).inOrder n ∧ resumed = false ∧ b = s
        ∧ (s.lane l).occupancy + ws.length ≤ (s.lane l).allocation)
      ∨ ((((s.lane l).state = .armed ∧ (s.lane l).config.startOption = .atNextParcel) ∨ (s.lane l).state = .stalled)
        ∧ resumed = decide ((s.lane l).state = .stalled) ∧ b = s.enterRunning l))
    (route : (s.lane l).config.route ≠ .echo ∧ (s.lane l).config.route ≠ .check) :
    exec .offer s = .next { b.takeParcel l n ws resumed with intake := s.intake.headGone rest .taken } := by
  have entered (u : State) (r : Bool) (config : (u.lane l).config = (s.lane l).config) :
      Work u (u.takeParcel l n ws r) :=
    u.takeParcel_work l n ws r fun echo => absurd (config ▸ echo) route.1
  rcases row with ⟨running, inOrder, rfl, rfl, room⟩ | ⟨starting, rfl, rfl⟩
  · exact exec_offer_removes ready (.inl ⟨rfl, rfl⟩) (State.answer_running_enters running short inOrder route room)
      (entered b false rfl).frame.intake
  · have answer := State.answer_starting (n := n) short starting
    rw [if_neg fun h => route.1 h.1] at answer
    have started := s.enterRunning_work l
    have work := started.trans (entered (s.enterRunning l) (decide ((s.lane l).state = .stalled)) (started.frame.config l))
    exact exec_offer_removes ready (.inl ⟨rfl, rfl⟩) answer work.frame.intake

end

/-- Settles O27: the parcel is taken, and its entry is made of the steps. -/
theorem entryIsMadeStepByStep : Obligations.EntryIsMadeStepByStep := by
  unfold Obligations.EntryIsMadeStepByStep
  intro s l n ws rest ln d resumed b ready hln short row
  subst hln
  have entry : (b.lane l).config = (s.lane l).config ∧ (b.lane l).inOrder n ∧ d = (b.lane l).gapBefore n := by
    rcases row with ⟨running, inOrder, gap, -, rfl, -⟩ | ⟨-, gap, -, same⟩
    · exact ⟨rfl, inOrder, gap⟩
    · rw [same.trans (s.enterRunning_eq l).symm, State.lane_enterRunning_same]
      exact ⟨rfl, fun e absent => (nomatch absent), gap⟩
  have row' : ((s.lane l).state = .running false ∧ (s.lane l).inOrder n ∧ resumed = false ∧ b = s
        ∧ (s.lane l).occupancy + ws.length ≤ (s.lane l).allocation)
      ∨ ((((s.lane l).state = .armed ∧ (s.lane l).config.startOption = .atNextParcel) ∨ (s.lane l).state = .stalled)
        ∧ resumed = decide ((s.lane l).state = .stalled) ∧ b = s.enterRunning l) := by
    rcases row with ⟨running, inOrder, -, fresh, same, room⟩ | ⟨starting, -, flag, same⟩
    · exact .inl ⟨running, inOrder, fresh, same, room⟩
    · exact .inr ⟨starting, flag, same.trans (s.enterRunning_eq l).symm⟩
  obtain ⟨config, inOrder, gap⟩ := entry
  refine ⟨fun restore => ?_, fun plain => ?_⟩
  · rw [exec_offer_enters ready short row' (by rw [restore]; exact ⟨(nomatch ·), (nomatch ·)⟩),
      ← State.enterRestore_eq inOrder gap]
    unfold State.takeParcel
    rw [config, restore]
  · have route : (s.lane l).config.route ≠ .echo ∧ (s.lane l).config.route ≠ .check := by
      constructor
      · intro h; simp [h] at plain
      · intro h; simp [h] at plain
    rw [exec_offer_enters ready short row' route, State.takeParcel_of_plain (by rw [config]; exact plain),
      State.enterPlain_eq inOrder gap]

end Sys2Proof.Machine
end

section
/-! What the start of an entry makes of the hum profiles and of the lanes' phases (R35, R37 to R40). -/

namespace Sys2Proof.Machine

/-! ### Swaps beside a lane -/

/-- From s to t pending swaps are taken, and the other lanes' phases follow them (R35). -/
structure State.Shifted (l : LaneId) (s t : State) : Prop where
  profile : ∀ k : ProfileId, t.profile k = s.profile k
    ∨ (s.profile k).swapPending = true ∧ t.profile k = (s.profile k).swapped
  others : OtherLanesKept s t l

section
variable {l : LaneId} {s t u : State}

theorem State.phaseAfter_of_profile {m : LaneId} {k : ProfileId} (profile : (s.lane m).hum.profile = some k) :
    s.phaseAfter t m =
      if (s.profile k).swapPending = true ∧ (t.profile k).swapPending = false then
        (s.lane m).hum.index % ((s.profile k).bank (s.profile k).serving.other).length
      else (s.lane m).hum.index := by
  unfold State.phaseAfter
  rw [profile]

theorem State.phaseAfter_of_none {m : LaneId} (profile : (s.lane m).hum.profile = none) :
    s.phaseAfter t m = (s.lane m).hum.index := by
  unfold State.phaseAfter
  rw [profile]

theorem State.Shifted.of_lane (l : LaneId) (others : ∀ m, m ≠ l → t.lane m = s.lane m) (profiles : t.profiles = s.profiles) :
    s.Shifted l t where
  profile k := .inl (congrArg (fun ps : Vector HumProfile 8 => ps[k]) profiles)
  others m hm := by
    rw [others m hm, State.phaseAfter_same _ _ _ fun k _ => congrArg (fun ps : Vector HumProfile 8 => ps[k]) profiles]

/-- A swap that has been taken is not pending any more, so none is taken twice. -/
theorem State.Shifted.trans (h : s.Shifted l t) (k : t.Shifted l u) : s.Shifted l u where
  profile j := by
    rcases h.profile j with same | ⟨pending, swapped⟩
    · rw [← same]
      exact k.profile j
    · rcases k.profile j with after | ⟨again, -⟩
      · exact .inr ⟨pending, after.trans swapped⟩
      · rw [swapped] at again
        exact nomatch again
  others m hm := by
    have first := h.others m hm
    have second := k.others m hm
    have shift : t.phaseAfter u m = s.phaseAfter u m := by
      have same : (t.lane m).hum.profile = (s.lane m).hum.profile := by rw [first]
      have index : (t.lane m).hum.index = s.phaseAfter t m := by rw [first]
      cases profile : (s.lane m).hum.profile with
      | none =>
        rw [State.phaseAfter_of_none (same.trans profile), State.phaseAfter_of_none profile, index,
          State.phaseAfter_of_none profile]
      | some j =>
        rw [State.phaseAfter_of_profile (same.trans profile), State.phaseAfter_of_profile profile, index,
          State.phaseAfter_of_profile profile]
        rcases h.profile j with still | ⟨pending, swapped⟩
        · have idle : ¬((s.profile j).swapPending = true ∧ (s.profile j).swapPending = false) :=
            fun ⟨yes, no⟩ => Bool.noConfusion (yes.symm.trans no)
          rw [still, if_neg idle]
        · have done : (t.profile j).swapPending = false := by rw [swapped]; rfl
          have after : (u.profile j).swapPending = false := by
            rcases k.profile j with same | ⟨again, -⟩
            · rw [same, done]
            · rw [done] at again
              exact nomatch again
          have taken : (s.profile j).swapPending = true ∧ (t.profile j).swapPending = false := ⟨pending, done⟩
          have overall : (s.profile j).swapPending = true ∧ (u.profile j).swapPending = false := ⟨pending, after⟩
          have idle : ¬((t.profile j).swapPending = true ∧ (u.profile j).swapPending = false) := fun ⟨yes, _⟩ => by
            rw [done] at yes
            exact nomatch yes
          rw [if_neg idle, if_pos taken, if_pos overall]
    rw [second, first, ← shift]

theorem State.profile_swap_ne (s : State) {k j : ProfileId} (h : j ≠ k) (a : Option LaneId) (n : SeqNum) :
    (s.swap k a n).profile j = s.profile j := by
  unfold State.swap
  dsimp only
  rw [State.profile_issue]
  exact State.profile_modProfile_ne s _ h

theorem State.Shifted.swap {k : ProfileId} (pending : (s.profile k).swapPending = true) (a : Option LaneId) (n : SeqNum) :
    s.Shifted l (s.swap k a n) where
  profile j := by
    by_cases same : j = k
    · subst same
      exact .inr ⟨pending, s.profile_swap_same j a n⟩
    · exact .inl (s.profile_swap_ne same a n)
  others m _ := by
    have taken : ((s.swap k a n).profile k).swapPending = false := by rw [s.profile_swap_same]; rfl
    rw [State.lane_swap]
    unfold Lane.reducePhase
    by_cases own : (s.lane m).hum.profile = some k
    · have both : (s.profile k).swapPending = true ∧ ((s.swap k a n).profile k).swapPending = false := ⟨pending, taken⟩
      rw [if_pos own, State.phaseAfter_of_profile own, if_pos both]
      rfl
    · rw [if_neg own, State.phaseAfter_same _ _ _ fun j hj => ?_]
      refine State.profile_swap_ne s (fun same => own ?_) a n
      rw [hj, same]

theorem State.Shifted.userLeft (s : State) (l : LaneId) (old : Option ProfileId) : s.Shifted l (s.userLeft old) := by
  cases old with
  | none => exact .of_lane l (fun _ _ => rfl) rfl
  | some k =>
    rw [State.userLeft_some]
    split
    · rename_i taken
      exact .swap taken.1 none 0
    · exact .of_lane l (fun _ _ => rfl) rfl

theorem State.Shifted.modHum (s : State) (l : LaneId) (f : LaneHum → LaneHum) : s.Shifted l (s.modHum l f) :=
  .of_lane l (fun _ hm => s.lane_modHum_ne f hm) rfl

/-- The start of an entry takes swaps, and turns the lane's own phase (R37 to R40). -/
theorem State.shifted_humBegin (s : State) (l : LaneId) (p : Option ProfileId) (n : SeqNum) :
    s.Shifted l (s.humBegin l p n) := by
  unfold State.humBegin
  split
  · rename_i k
    have swapped : s.Shifted l (if (s.profile k).swapPending then s.swap k (some l) n else s) := by
      split
      · exact .swap ‹_› _ _
      · exact .of_lane l (fun _ _ => rfl) rfl
    dsimp only
    generalize (if (s.profile k).swapPending then s.swap k (some l) n else s) = s1 at swapped ⊢
    have turned : s.Shifted l
        (if (s1.lane l).hum.profile ≠ some k ∨ (s1.lane l).hum.restart = true then
          s1.modHum l fun _ => { profile := some k, index := (s1.profile k).restartIndex, restart := false }
        else s1) := by
      split
      · exact swapped.trans (.modHum s1 l _)
      · exact swapped
    split
    · exact turned.trans (.userLeft _ l _)
    · exact turned
  · exact (State.Shifted.modHum s l _).trans (.userLeft _ l _)

/-! ### The profiles and the lane's own phase -/

/-- The profile lane x turns away from takes its pending swap when no lane uses it any more (R38). -/
theorem State.profile_userLeft (s : State) (old : Option ProfileId) (k : ProfileId) :
    (s.userLeft old).profile k =
      if (s.profile k).swapPending = true ∧ old = some k ∧ ∀ m : LaneId, (s.lane m).uses k = false then
        (s.profile k).swapped
      else s.profile k := by
  cases old with
  | none => exact (if_neg fun h => nomatch h.2.1).symm
  | some j =>
    rw [State.userLeft_some]
    by_cases same : k = j
    · subst same
      simp only [true_and]
      split
      · exact s.profile_swap_same k none 0
      · rfl
    · have other : ¬((s.profile k).swapPending = true ∧ some j = some k ∧ ∀ m : LaneId, (s.lane m).uses k = false) :=
        fun h => same (Option.some_inj.1 h.2.1).symm
      rw [if_neg other]
      split
      · exact s.profile_swap_ne same none 0
      · rfl

/-- What is taken at the start of lane l's entry under profile p: the pending swap of p, and that of the profile the lane
turns away from, if no other lane uses it (R37, R38). -/
abbrev State.SwapTaken (s : State) (l : LaneId) (p : Option ProfileId) (k : ProfileId) : Prop :=
  (s.profile k).swapPending = true
    ∧ (p = some k
      ∨ ((s.lane l).hum.profile = some k ∧ p ≠ some k ∧ ∀ m : LaneId, m ≠ l → (s.lane m).uses k = false))

theorem State.uses_modHum_ne {m : LaneId} (hm : m ≠ l) (f : LaneHum → LaneHum) (k : ProfileId) :
    ((s.modHum l f).lane m).uses k = (s.lane m).uses k := by rw [s.lane_modHum_ne f hm]

/-- The lane turns to profile p: it is no user of another profile any more. -/
theorem State.unused_modHum {k : ProfileId} {f : LaneHum → LaneHum}
    (turned : (f (s.lane l).hum).profile ≠ some k) :
    (∀ m : LaneId, ((s.modHum l f).lane m).uses k = false) ↔ ∀ m : LaneId, m ≠ l → (s.lane m).uses k = false := by
  constructor
  · intro all m hm
    rw [← s.uses_modHum_ne hm f]
    exact all m
  · intro others m
    by_cases hm : m = l
    · subst hm
      rw [State.lane_modHum_same]
      simp [Lane.uses, turned]
    · rw [s.uses_modHum_ne hm f]
      exact others m hm

theorem State.profile_humBegin_idle {k : ProfileId} (idle : (s.profile k).swapPending = false) (n : SeqNum)
    (j : ProfileId) :
    (s.humBegin l (some k) n).profile j = if s.SwapTaken l (some k) j then (s.profile j).swapped else s.profile j := by
  have own : j = k → (s.profile j).swapPending = false := fun same => same ▸ idle
  by_cases same : (s.lane l).hum.profile = some k
  · have none : ¬s.SwapTaken l (some k) j := by
      rintro ⟨pending, turn | ⟨was, isNot, -⟩⟩
      · rw [own (Option.some_inj.1 turn).symm] at pending
        exact nomatch pending
      · exact isNot (same.symm.trans was)
    rw [State.humBegin_same idle same, if_neg none]
    split <;> rfl
  · rw [State.humBegin_other idle same, State.profile_userLeft]
    refine if_congr ⟨?_, ?_⟩ rfl rfl
    · rintro ⟨pending, was, unused⟩
      have isNot : some k ≠ some j := fun h => same (was.trans h.symm)
      exact ⟨pending, .inr ⟨was, isNot, (State.unused_modHum isNot).1 unused⟩⟩
    · rintro ⟨pending, turn | ⟨was, isNot, unused⟩⟩
      · rw [own (Option.some_inj.1 turn).symm] at pending
        exact nomatch pending
      · exact ⟨pending, was, (State.unused_modHum isNot).2 unused⟩

theorem State.profile_humBegin (s : State) (l : LaneId) (p : Option ProfileId) (n : SeqNum) (j : ProfileId) :
    (s.humBegin l p n).profile j = if s.SwapTaken l p j then (s.profile j).swapped else s.profile j := by
  cases p with
  | none =>
    change ((s.modHum l fun h => { h with profile := none }).userLeft (s.lane l).hum.profile).profile j = _
    rw [State.profile_userLeft]
    have isNot : (none : Option ProfileId) ≠ some j := fun h => nomatch h
    refine if_congr ⟨?_, ?_⟩ rfl rfl
    · rintro ⟨pending, was, unused⟩
      exact ⟨pending, .inr ⟨was, isNot, (State.unused_modHum isNot).1 unused⟩⟩
    · rintro ⟨pending, turn | ⟨was, -, unused⟩⟩
      · exact absurd turn isNot
      · exact ⟨pending, was, (State.unused_modHum isNot).2 unused⟩
  | some k =>
    by_cases pending : (s.profile k).swapPending = true
    · rw [State.humBegin_pending pending, State.profile_humBegin_idle (by rw [s.profile_swap_same]; rfl)]
      unfold State.SwapTaken
      by_cases same : j = k
      · subst same
        rw [s.profile_swap_same, if_neg fun h => nomatch h.1]
        exact (if_pos ⟨pending, .inl rfl⟩).symm
      · rw [s.profile_swap_ne same]
        simp only [State.uses_swap, State.phaseProfile_swap]
    · exact State.profile_humBegin_idle (Bool.not_eq_true _ ▸ pending) n j

/-- The phase of a lane entry x at its entry of a parcel under the profile in force, k (R37, R39, R40): the start phase
when it turns to the profile or a restart is pending, else its own index, reduced by a swap. -/
def State.humBegun (s : State) (x : Lane) : LaneHum :=
  match x.humInForce with
  | none => { x.hum with profile := none }
  | some k =>
    let p := s.profile k
    let b := if p.swapPending = true then p.bank p.serving.other else p.bank p.serving
    { profile := some k
      index :=
        if x.hum.profile ≠ some k ∨ x.hum.restart = true then p.startPhase % b.length
        else if p.swapPending = true then x.hum.index % b.length
        else x.hum.index
      restart := false }

theorem State.lane_userLeft_of_other {m : LaneId} {old : Option ProfileId}
    (other : old ≠ none → (s.lane m).hum.profile ≠ old) : (s.userLeft old).lane m = s.lane m := by
  cases old with
  | none => rfl
  | some k =>
    rw [State.userLeft_some]
    split
    · rw [State.lane_swap]
      exact if_neg (other fun h => nomatch h)
    · rfl

/-- The entry of lane l at the start of a parcel's entry, whichever profile is in force (R37, R39, R40). -/
theorem State.lane_humBegin_idle {k : ProfileId} (idle : (s.profile k).swapPending = false)
    (inForce : (s.lane l).humInForce = some k) (n : SeqNum) :
    (s.humBegin l (some k) n).lane l = { s.lane l with hum := s.humBegun (s.lane l) } := by
  have begun : s.humBegun (s.lane l) =
      { profile := some k
        index :=
          if (s.lane l).hum.profile ≠ some k ∨ (s.lane l).hum.restart = true then (s.profile k).restartIndex
          else (s.lane l).hum.index
        restart := false } := by
    unfold State.humBegun
    rw [inForce]
    simp only [idle, Bool.false_eq_true, if_false]
    rfl
  rw [begun]
  by_cases same : (s.lane l).hum.profile = some k
  · rw [State.humBegin_same idle same]
    by_cases restart : (s.lane l).hum.restart = true
    · rw [if_pos restart, if_pos (.inr restart), State.lane_modHum_same]
    · have stays : ¬((s.lane l).hum.profile ≠ some k ∨ (s.lane l).hum.restart = true) := fun h =>
        h.elim (fun turn => turn same) restart
      have kept : (s.lane l).hum.restart = false := Bool.not_eq_true _ ▸ restart
      rw [if_neg restart, if_neg stays, ← same, ← kept]
  · rw [State.humBegin_other idle same, State.lane_userLeft_of_other, State.lane_modHum_same, if_pos (.inl same)]
    intro _
    rw [State.lane_modHum_same]
    exact fun h => same h.symm

theorem State.lane_humBegin (s : State) (l : LaneId) (n : SeqNum) :
    (s.humBegin l (s.lane l).humInForce n).lane l = { s.lane l with hum := s.humBegun (s.lane l) } := by
  cases inForce : (s.lane l).humInForce with
  | none =>
    have begun : s.humBegun (s.lane l) = { (s.lane l).hum with profile := none } := by
      unfold State.humBegun
      rw [inForce]
    change ((s.modHum l fun h => { h with profile := none }).userLeft (s.lane l).hum.profile).lane l = _
    rw [begun, State.lane_userLeft_of_other, State.lane_modHum_same]
    intro some
    rw [State.lane_modHum_same]
    exact some.symm
  | some k =>
    by_cases pending : (s.profile k).swapPending = true
    · have swapped := s.profile_swap_same k (some l) n
      have inForceAfter : ((s.swap k (some l) n).lane l).humInForce = some k := by
        rw [State.lane_swap, ← inForce]
        unfold Lane.reducePhase Lane.humInForce
        split <;> rfl
      rw [State.humBegin_pending pending, State.lane_humBegin_idle (by rw [swapped]; rfl) inForceAfter]
      have begun : (s.swap k (some l) n).humBegun ((s.swap k (some l) n).lane l) = s.humBegun (s.lane l) := by
        unfold State.humBegun
        rw [inForceAfter, inForce]
        dsimp only
        rw [swapped, State.lane_swap]
        unfold Lane.reducePhase
        by_cases same : (s.lane l).hum.profile = some k
        · simp [same, HumProfile.swapped, pending, HumProfile.servingBank, HumProfile.bank]
        · simp [same, HumProfile.swapped, pending, HumProfile.bank]
      rw [begun, State.lane_swap]
      unfold Lane.reducePhase
      split <;> rfl
    · exact State.lane_humBegin_idle (Bool.not_eq_true _ ▸ pending) inForce n

/-! ### What the start of an entry leaves -/

theorem State.swap_share (s : State) (m : LaneId) (k : ProfileId) (a : Option LaneId) (n : SeqNum) :
    LaneShare m s (s.swap k a n) :=
  .ofWork (s.swap_work k a n) rfl rfl rfl fun c hc => DeliveryPort.counter_issue _ _ c hc

theorem State.userLeft_share (s : State) (m : LaneId) (old : Option ProfileId) : LaneShare m s (s.userLeft old) := by
  cases old with
  | none => exact (LaneWork.refl s).share
  | some k =>
    rw [State.userLeft_some]
    split
    · exact s.swap_share m k none 0
    · exact (LaneWork.refl s).share

theorem State.humBegin_share (s : State) (l m : LaneId) (p : Option ProfileId) (n : SeqNum) :
    LaneShare m s (s.humBegin l p n) := by
  unfold State.humBegin
  split
  · rename_i k
    have swapped : LaneShare m s (if (s.profile k).swapPending then s.swap k (some l) n else s) := by
      split
      · exact s.swap_share m k _ n
      · exact (LaneWork.refl s).share
    dsimp only
    generalize (if (s.profile k).swapPending then s.swap k (some l) n else s) = s1 at swapped ⊢
    have turned : LaneShare m s
        (if (s1.lane l).hum.profile ≠ some k ∨ (s1.lane l).hum.restart = true then
          s1.modHum l fun _ => { profile := some k, index := (s1.profile k).restartIndex, restart := false }
        else s1) := by
      split
      · exact swapped.trans (.modLane s1 l _)
      · exact swapped
    split
    · exact turned.trans (State.userLeft_share _ m _)
    · exact turned
  · exact (LaneShare.modLane s l _).trans (State.userLeft_share _ m _)

end

end Sys2Proof.Machine
end

section
/-! What the detector leaves of a lane's entry, and the samples of a RESTORE parcel as they enter (R16, R39, R41, R72). -/

namespace Sys2Proof.Machine

/-! ### The detector's share of an entry -/

/-- The counters that the entry of a parcel raises by itself (R17, R19). -/
def LaneCounter.ofEntry (c : LaneCounter) : Prop :=
  c = .parcelsEntered ∨ c = .samplesEntered ∨ c = .gaps ∨ c = .missingParcels

/-- Lane y is lane x but for its detector and counters other than those of an entry. -/
def Lane.Classified (x y : Lane) : Prop :=
  ∃ e c, y = { x with det := e, counters := c } ∧ ∀ k : LaneCounter, k.ofEntry → y.counter k = x.counter k

theorem Lane.Classified.refl (x : Lane) : x.Classified x := ⟨_, _, rfl, fun _ _ => rfl⟩

theorem Lane.Classified.trans {x y z : Lane} (h : x.Classified y) (k : y.Classified z) : x.Classified z := by
  obtain ⟨_, _, rfl, same⟩ := h
  obtain ⟨_, _, rfl, after⟩ := k
  exact ⟨_, _, rfl, fun c hc => (after c hc).trans (same c hc)⟩

theorem Lane.classified_det (x : Lane) (e : Detector) : x.Classified { x with det := e } := ⟨_, _, rfl, fun _ _ => rfl⟩

theorem Lane.classified_counted (x : Lane) {c : LaneCounter} (h : ¬c.ofEntry) (n : Nat) : x.Classified (x.bump c n) :=
  ⟨_, _, rfl, fun k hk => x.counter_bump_ne n (by rintro rfl; exact h hk)⟩

section
variable {s : State} {l : LaneId} {x : Lane}

theorem State.classified_modDet (s : State) (l : LaneId) (f : Detector → Detector) :
    (s.lane l).Classified ((s.modDet l f).lane l) := by
  rw [State.modDet_eq_withLane, State.lane_withLane_same]
  exact Lane.classified_det _ _

theorem State.classified_count (s : State) (l : LaneId) {c : LaneCounter} (h : ¬c.ofEntry) (n : Nat) :
    (s.lane l).Classified ((s.count l c n).lane l) := by
  rw [State.lane_count_same]
  exact Lane.classified_counted _ h n

theorem LaneCounter.not_ofEntry :
    ¬LaneCounter.ofEntry .runsMissed ∧ ¬LaneCounter.ofEntry .runsRepaired ∧ ¬LaneCounter.ofEntry .runsUnrepaired
      ∧ ¬LaneCounter.ofEntry .lateSplices ∧ ¬LaneCounter.ofEntry .levelHits := by
  unfold LaneCounter.ofEntry
  decide

theorem State.classified_reportRelease (s : State) (l : LaneId) (r : RunRecord) :
    (s.lane l).Classified ((s.reportRelease l r).lane l) := by
  obtain ⟨-, repaired, unrepaired, -⟩ := LaneCounter.not_ofEntry
  unfold State.reportRelease
  split
  · exact s.classified_count l repaired 1
  · exact s.classified_count l unrepaired 1
  all_goals exact .refl _

theorem State.classified_foldl {α : Type} (f : State → α → State)
    (step : ∀ (t : State) (a : α), (t.lane l).Classified ((f t a).lane l)) :
    ∀ (xs : List α) (s : State), x.Classified (s.lane l) → x.Classified ((xs.foldl f s).lane l)
  | [], _, h => h
  | a :: xs, s, h => State.classified_foldl f step xs (f s a) (h.trans (step s a))

theorem State.classified_releaseRuns (s : State) (l : LaneId) : (s.lane l).Classified ((s.releaseRuns l).lane l) := by
  unfold State.releaseRuns
  dsimp only
  split
  · exact .refl _
  · have dropped := s.classified_modDet l fun d =>
      { d with runs := d.runs.filter fun r => !r.released (s.lane l).headPosition }
    exact State.classified_foldl _ (fun t r => t.classified_reportRelease l r) _ _ dropped

theorem State.classified_missRun (s : State) (l : LaneId) (n : SeqNum) :
    (s.lane l).Classified ((s.missRun l n).lane l) := by
  have missed := s.classified_count l LaneCounter.not_ofEntry.1 1
  unfold State.missRun
  dsimp only
  split
  · exact missed
  · exact missed

theorem State.classified_openNewRun (s : State) (l : LaneId) (n : SeqNum) (cs : Causes) :
    (s.lane l).Classified ((s.openNewRun l n cs).lane l) := by
  unfold State.openNewRun
  split
  · exact s.classified_modDet l _
  · exact s.classified_missRun l n

theorem State.classified_joinRun (s : State) (l : LaneId) (c : LaneConfig) (n : SeqNum) (cs : Causes) :
    (s.lane l).Classified ((s.joinRun l c n cs).lane l) := by
  unfold State.joinRun
  split
  · exact s.classified_modDet l _
  · unfold State.openRun
    dsimp only
    split
    · split
      · exact (s.dropRepairEntry l _).classified_modDet l _
      · exact s.classified_openNewRun l n cs
    · exact s.classified_openNewRun l n cs

theorem State.classified_calmSample (s : State) (l : LaneId) (c : LaneConfig) (v : Sample) :
    (s.lane l).Classified ((s.calmSample l c v).lane l) := by
  unfold State.calmSample
  dsimp only
  split
  · split
    · unfold State.closeRun
      dsimp only
      refine Lane.Classified.trans ?_ (State.classified_releaseRuns _ l)
      generalize RunRecord.closedState _ _ _ = st
      have closed (q : RunRecord) := s.classified_modDet l fun d => (d.modRun q.number fun r =>
        { r with growing := false, rightAnchor := if (s.lane l).det.calmCount = 0 then some v else (s.lane l).det.calmStart
                 state := st }).resetCalm
      split
      · exact closed _
      · exact closed _
    · exact s.classified_modDet l _
  · exact .refl _

/-- The detector's step on a sample leaves the lane's entry but for the detector and its own counters (R52). -/
theorem State.classified_detect (s : State) (l : LaneId) (c : LaneConfig) (n : SeqNum) (spans : List (Causes × Nat))
    (v : Sample) : (s.lane l).Classified ((s.detect l c n spans v).lane l) := by
  have begun := s.classified_modDet l fun d => d.beginSpans spans
  unfold State.detect
  dsimp only
  refine (begun.trans ?_).trans (State.classified_modDet _ l _)
  split
  · exact (State.classified_joinRun _ l c n _).trans (State.classified_modDet _ l _)
  · split
    · exact State.classified_joinRun _ l c n _
    · exact State.classified_calmSample _ l c v

/-! ### One sample -/

theorem clampSample_eq (x : Int) : clampSample x = BitVec.ofInt 16 (max (-32768) (min 32767 x)) := by
  apply BitVec.eq_of_toInt_eq
  rw [clampSample_toInt, toInt_ofInt_sample (by omega) (by omega)]

/-- The offsets of a plan's parcel at which the phase begins again (R41). -/
def State.restartsAt (s : State) (e : EntryPlan) : List Nat :=
  match e.config.humProfile with
  | none => []
  | some k => if (s.profile k).resync = .splice then e.spliceOffsets else []

/-- The value under which sample w at offset i enters at phase index j, and the index after it (R39, R41). -/
def State.entryStep (s : State) (e : EntryPlan) (i j : Nat) (w : Sample) : Sample × Nat :=
  match e.config.humProfile with
  | none => (w, j)
  | some k =>
    let p := s.profile k
    let j1 := if i ∈ s.restartsAt e then p.restartIndex else j
    (cancelValue w (p.servingBank.entry j1) e.config.humGain, nextIndex j1 p.servingBank.length)

/-- The values of a run of samples from offset i on, and the phase index after them (R39, R41). -/
def State.entryRun (s : State) (e : EntryPlan) (i j : Nat) (ws : List Sample) : List Sample × Nat :=
  match e.config.humProfile with
  | none => (ws, j)
  | some k =>
    let p := s.profile k
    cancelRun p.servingBank e.config.humGain p.restartIndex (s.restartsAt e) i j ws

theorem State.entryRun_nil (s : State) (e : EntryPlan) (i j : Nat) : s.entryRun e i j [] = ([], j) := by
  unfold State.entryRun
  split <;> rfl

theorem State.entryRun_cons (s : State) (e : EntryPlan) (i j : Nat) (w : Sample) (ws : List Sample) :
    s.entryRun e i j (w :: ws) =
      ((s.entryStep e i j w).1 :: (s.entryRun e (i + 1) (s.entryStep e i j w).2 ws).1,
        (s.entryRun e (i + 1) (s.entryStep e i j w).2 ws).2) := by
  unfold State.entryRun State.entryStep
  split
  · rfl
  · dsimp only
    rw [cancelRun, cancelValue, clampSample_eq]
    rfl

theorem State.length_entryRun (s : State) (e : EntryPlan) : ∀ (ws : List Sample) (i j : Nat),
    (s.entryRun e i j ws).1.length = ws.length
  | [], i, j => by rw [State.entryRun_nil]
  | w :: ws, i, j => by
    rw [State.entryRun_cons, List.length_cons, State.length_entryRun s e ws, List.length_cons]

/-- The run depends on the part by its profiles alone. -/
theorem State.entryRun_of_profiles {t : State} (profiles : t.profiles = s.profiles) (e : EntryPlan) (i j : Nat)
    (ws : List Sample) : t.entryRun e i j ws = s.entryRun e i j ws := by
  unfold State.entryRun State.restartsAt State.profile
  rw [profiles]

/-- The value and the phase of a sample, as the entry makes them (R39, R41). -/
theorem State.humStep_eq (s : State) (l : LaneId) (e : EntryPlan) (i : Nat) (w : Sample) {t : State}
    (restarted : t = if e.spliceOffsets.contains i then s.spliceResync l e.config.humProfile else s) :
    t.cancelled l e.config.humProfile e.config.humGain w = (s.entryStep e i (s.lane l).hum.index w).1
      ∧ (t.humAdvance l e.config.humProfile).lane l =
        { s.lane l with
          hum := { (s.lane l).hum with index := (s.entryStep e i (s.lane l).hum.index w).2 } } := by
  unfold State.entryStep State.restartsAt
  cases profile : e.config.humProfile with
  | none =>
    rw [profile] at restarted
    have same : t = s := restarted.trans (ite_self s)
    rw [same]
    exact ⟨rfl, rfl⟩
  | some k =>
    rw [profile] at restarted
    dsimp only
    by_cases starts : i ∈ (if (s.profile k).resync = .splice then e.spliceOffsets else [])
    · have resync : (s.profile k).resync = .splice ∧ i ∈ e.spliceOffsets := by
        split at starts
        · exact ⟨‹_›, starts⟩
        · exact absurd starts List.not_mem_nil
      have again : t = s.modHum l fun h => { h with index := (s.profile k).restartIndex } := by
        rw [restarted, if_pos (List.contains_iff_mem.2 resync.2)]
        exact if_pos resync.1
      have entry : t.lane l = { s.lane l with hum := { (s.lane l).hum with index := (s.profile k).restartIndex } } := by
        rw [again, State.lane_modHum_same]
      have kept : t.profile k = s.profile k := by rw [again]; rfl
      rw [if_pos starts]
      refine ⟨?_, ?_⟩
      · unfold State.cancelled
        dsimp only
        rw [kept, entry]
      · unfold State.humAdvance
        dsimp only
        rw [State.lane_modHum_same, entry, kept]
    · have same : t = s := by
        rw [restarted]
        split
        · rename_i here
          refine if_neg fun resync => starts ?_
          rw [if_pos resync]
          exact List.contains_iff_mem.1 here
        · rfl
      rw [if_neg starts, same]
      exact ⟨rfl, State.lane_modHum_same s l _⟩

/-- The lane after one sample of a RESTORE parcel (R16 step 3): the sample is held, and the phase has moved. -/
theorem State.lane_enterSample (s : State) (l : LaneId) (e : EntryPlan) (i : Nat) (w : Sample) :
    ∃ y, (s.lane l).Classified y ∧ (s.enterSample l e i w).lane l =
      { y with
        hum := { (s.lane l).hum with index := (s.entryStep e i (s.lane l).hum.index w).2 }
        held :=
          if i = 0 then
            (s.lane l).held ++ [e.heldParcel (s.lane l).nextPosition (s.entryStep e i (s.lane l).hum.index w).1]
          else
            updateLast (fun p => { p with samples := p.samples ++ [(s.entryStep e i (s.lane l).hum.index w).1] })
              (s.lane l).held
        nextPosition := (s.lane l).nextPosition + 1 } := by
  obtain ⟨value, entry⟩ := s.humStep_eq l e i w rfl
  unfold State.enterSample
  dsimp only
  rw [value]
  generalize State.humAdvance _ l e.config.humProfile = t at entry
  generalize (s.entryStep e i (s.lane l).hum.index w).1 = v
  obtain ⟨d, c, detected, same⟩ := t.classified_detect l e.config e.seq (e.spansAt i) v
  rw [State.lane_modLane_same, detected, entry]
  rw [detected, entry] at same
  exact ⟨{ s.lane l with det := d, counters := c }, ⟨d, c, rfl, same⟩, rfl⟩

/-! ### All the samples -/

theorem State.profiles_enterSample (s : State) (l : LaneId) (e : EntryPlan) (i : Nat) (w : Sample) :
    (s.enterSample l e i w).profiles = s.profiles := (s.enterSample_laneWork l e i w).frame.profiles

/-- The samples behind the first join the held parcel the first has begun (R72). -/
theorem State.lane_enterSamples_behind (l : LaneId) (e : EntryPlan) (hs : List HeldParcel) :
    ∀ (ws : List Sample) (i : Nat) (s : State) (q : HeldParcel), i ≠ 0 → (s.lane l).held = hs ++ [q] →
      ∃ y, (s.lane l).Classified y ∧ (State.enterSamples ws i l e s).lane l =
        { y with
          hum := { (s.lane l).hum with index := (s.entryRun e i (s.lane l).hum.index ws).2 }
          held := hs ++ [{ q with samples := q.samples ++ (s.entryRun e i (s.lane l).hum.index ws).1 }]
          nextPosition := (s.lane l).nextPosition + ws.length }
  | [], i, s, q, _, line => by
    refine ⟨s.lane l, .refl _, ?_⟩
    rw [State.entryRun_nil, List.append_nil]
    change s.lane l = _
    rw [← line]
    rfl
  | w :: ws, i, s, q, behind, line => by
    obtain ⟨y, classified, entry⟩ := s.lane_enterSample l e i w
    rw [if_neg behind, line, updateLast_append] at entry
    generalize hv : (s.entryStep e i (s.lane l).hum.index w).1 = v at entry
    obtain ⟨z, after, rest⟩ := State.lane_enterSamples_behind l e hs ws (i + 1) (s.enterSample l e i w) _
      (Nat.succ_ne_zero i) (by rw [entry])
    have run := s.entryRun_cons e i (s.lane l).hum.index w ws
    rw [hv] at run
    rw [State.entryRun_of_profiles (s.profiles_enterSample l e i w), entry] at rest
    rw [entry] at after
    obtain ⟨d, c, rfl, same⟩ := after
    obtain ⟨_, _, rfl, first⟩ := classified
    refine ⟨_, ⟨d, c, rfl, fun k hk => (same k hk).trans (first k hk)⟩, ?_⟩
    change (State.enterSamples ws (i + 1) l e (s.enterSample l e i w)).lane l = _
    rw [rest, run]
    simp only [List.append_assoc, List.singleton_append, List.length_cons, Nat.add_assoc, Nat.add_comm 1]

/-- The lane after all the samples of a RESTORE parcel (R16 step 3, R39, R41, R72). -/
theorem State.lane_enterSamples (s : State) (l : LaneId) (e : EntryPlan) {ws : List Sample} (some : ws ≠ []) :
    ∃ y, (s.lane l).Classified y ∧ (State.enterSamples ws 0 l e s).lane l =
      { y with
        hum := { (s.lane l).hum with index := (s.entryRun e 0 (s.lane l).hum.index ws).2 }
        held := (s.lane l).held ++
          [{ e.heldParcel (s.lane l).nextPosition 0 with samples := (s.entryRun e 0 (s.lane l).hum.index ws).1 }]
        nextPosition := (s.lane l).nextPosition + ws.length } := by
  cases ws with
  | nil => exact absurd rfl some
  | cons w ws =>
    obtain ⟨y, classified, entry⟩ := s.lane_enterSample l e 0 w
    rw [if_pos rfl] at entry
    generalize hv : (s.entryStep e 0 (s.lane l).hum.index w).1 = v at entry
    obtain ⟨z, after, rest⟩ := State.lane_enterSamples_behind l e _ ws 1 (s.enterSample l e 0 w) _
      Nat.one_ne_zero (by rw [entry])
    have run := s.entryRun_cons e 0 (s.lane l).hum.index w ws
    rw [hv] at run
    rw [State.entryRun_of_profiles (s.profiles_enterSample l e 0 w), entry] at rest
    rw [entry] at after
    obtain ⟨d, c, rfl, same⟩ := after
    obtain ⟨_, _, rfl, first⟩ := classified
    refine ⟨_, ⟨d, c, rfl, fun k hk => (same k hk).trans (first k hk)⟩, ?_⟩
    change (State.enterSamples ws 1 l e (s.enterSample l e 0 w)).lane l = _
    rw [rest, run]
    simp only [EntryPlan.heldParcel, List.singleton_append, List.length_cons, Nat.add_assoc, Nat.add_comm 1]

end

end Sys2Proof.Machine
end

section
/-! The lane at the end of an entry, before departure follows (R16, R19, R37 to R41, R60, R61, R72). -/

namespace Sys2Proof.Machine

/-! ### The marks and the counters of an entry -/

/-- The mark list after the entry of parcel n (R60, R61): the SPLICE marks of the parcel and those behind it have no
pending span. -/
def marksAfter (n : SeqNum) (ms : List MarkEntry) : List MarkEntry :=
  ms.map fun (m : MarkEntry) =>
    if m.kind = .splice ∧ (m.seq = n ∨ 8388608 ≤ (m.seq - (n + 1)).toNat) then { m with spanPending := false } else m

/-- Lane y is lane x with the entry of parcel n begun, d parcels missing before it, and ms its mark list (R19). -/
structure Lane.EntryBegun (n : SeqNum) (d : Nat) (ms : List MarkEntry) (x y : Lane) : Prop where
  entry : ∃ c e, y = { x with expected := some (n + 1), marks := ms, counters := c, det := e }
  entered : y.counter .parcelsEntered = x.counter .parcelsEntered ∧ y.counter .samplesEntered = x.counter .samplesEntered
  gaps : y.counter .gaps = satBump (x.counter .gaps) (if d = 0 then 0 else 1)
  missing : y.counter .missingParcels = satBump (x.counter .missingParcels) d

section
variable {n : SeqNum} {d : Nat} {ms : List MarkEntry} {x y z : Lane}

theorem Lane.EntryBegun.classified (h : x.EntryBegun n d ms y) (k : y.Classified z) : x.EntryBegun n d ms z := by
  obtain ⟨⟨_, _, rfl⟩, ⟨parcels, samples⟩, gaps, missing⟩ := h
  obtain ⟨e, c, rfl, same⟩ := k
  exact ⟨⟨c, e, rfl⟩, ⟨(same _ (.inl rfl)).trans parcels, (same _ (.inr (.inl rfl))).trans samples⟩,
    (same _ (.inr (.inr (.inl rfl)))).trans gaps, (same _ (.inr (.inr (.inr rfl)))).trans missing⟩

theorem Lane.EntryBegun.expected (h : x.EntryBegun n d ms y) : y.expected = some (n + 1) := by
  obtain ⟨_, _, rfl⟩ := h.entry
  rfl

theorem Lane.EntryBegun.marks (h : x.EntryBegun n d ms y) : y.marks = ms := by
  obtain ⟨_, _, rfl⟩ := h.entry
  rfl

theorem Lane.EntryBegun.withMarks (h : x.EntryBegun n d ms y) (ms' : List MarkEntry) :
    x.EntryBegun n d ms' { y with marks := ms' } := by
  obtain ⟨⟨_, _, rfl⟩, entered, gaps, missing⟩ := h
  exact ⟨⟨_, _, rfl⟩, entered, gaps, missing⟩

end

section
variable {s : State} {l : LaneId} {n : SeqNum} {ws : List Sample} {d : Nat} {ms : List MarkEntry} {x : Lane}

theorem State.classified_watch (s : State) (l : LaneId) (n : SeqNum) (ws : List Sample) :
    (s.lane l).Classified ((s.watch l n ws).lane l) := by
  unfold State.watch
  split
  · exact s.classified_count l LaneCounter.not_ofEntry.2.2.2.2 1
  · exact .refl _

/-- Late marks lose their pending spans, and are counted (R61). -/
theorem Lane.EntryBegun.lateMarks (h : x.EntryBegun n d ms (s.lane l)) :
    x.EntryBegun n d
      (ms.map fun m => if m.pendingSplice && isBehind (n + 1) m.seq then { m with spanPending := false } else m)
      ((s.lateMarks l).lane l) := by
  have noted : ∀ (late : List MarkEntry) (u : State),
      (u.lane l).Classified ((late.foldl (fun u (m : MarkEntry) => u.spliceLate l m.seq) u).lane l) := fun late u =>
    State.classified_foldl (fun u (m : MarkEntry) => u.spliceLate l m.seq)
      (fun t _ => t.classified_count l LaneCounter.not_ofEntry.2.2.2.1 1) late u (.refl _)
  unfold State.lateMarks
  rw [h.expected]
  dsimp only
  refine Lane.EntryBegun.classified ?_ (noted _ _)
  rw [State.lane_modLane_same, h.marks]
  exact h.withMarks _

/-- The continuity step of parcel n, its SPLICE marks resolved (R19, R60). -/
theorem State.entryBegun_gapFollowed (s : State) (l : LaneId) (n : SeqNum) (d : Nat) :
    (s.lane l).EntryBegun n d
      ((s.lane l).marks.map fun (m : MarkEntry) =>
        if m.kind = .splice ∧ m.seq = n then { m with spanPending := false } else m)
      ((s.gapFollowed l n d).lane l) := by
  unfold State.gapFollowed
  dsimp only
  rw [State.lane_withLane_same]
  by_cases none : d = 0
  · rw [if_pos none, none]
    exact ⟨⟨_, _, rfl⟩, ⟨rfl, rfl⟩, (satBump_zero _).symm, (satBump_zero _).symm⟩
  · rw [if_neg none, State.issue_withLane, State.lane_withLane_same]
    have counters : ((s.lane l).counted .gaps 1).counted .missingParcels d
        = ((s.lane l).bump .gaps 1).bump .missingParcels d := rfl
    rw [counters]
    refine ⟨⟨_, _, rfl⟩, ⟨?_, ?_⟩, ?_, ?_⟩
    · exact (Lane.counter_bump_ne _ d (by decide)).trans (Lane.counter_bump_ne _ 1 (by decide))
    · exact (Lane.counter_bump_ne _ d (by decide)).trans (Lane.counter_bump_ne _ 1 (by decide))
    · rw [if_neg none]
      exact (Lane.counter_bump_ne _ d (by decide)).trans (Lane.counter_bump_same _ _ 1)
    · refine (Lane.counter_bump_same _ _ d).trans ?_
      rw [Lane.counter_bump_ne _ 1 (by decide)]

/-- The two passes over the mark list, the parcel's own SPLICE marks and the late ones, are one (R60, R61). -/
theorem marksAfter_eq (n : SeqNum) (ms : List MarkEntry) :
    (ms.map fun (m : MarkEntry) => if m.kind = .splice ∧ m.seq = n then { m with spanPending := false } else m).map
        (fun m => if m.pendingSplice && isBehind (n + 1) m.seq then { m with spanPending := false } else m)
      = marksAfter n ms := by
  unfold marksAfter
  rw [List.map_map]
  refine List.map_congr_left fun m _ => ?_
  have behind : 8388608 ≤ (m.seq - (n + 1)).toNat ↔ isBehind (n + 1) m.seq = true := decide_eq_true_iff.symm
  simp only [Function.comp, behind]
  obtain ⟨k, q, o, v, p⟩ := m
  by_cases splice : k = .splice
  · by_cases own : q = n
    · simp [splice, own, MarkEntry.pendingSplice]
    · simp only [own, and_false, if_false, false_or, splice, true_and, MarkEntry.pendingSplice, decide_true, Bool.true_and]
      generalize isBehind (n + 1) q = late
      cases late
      · simp
      · cases p <;> simp
  · simp [splice, MarkEntry.pendingSplice]

/-! ### The entry up to its hum profile -/

/-- The steps of an entry before a hum profile is taken up, from part s to part t (R16, R19, R60 to R63). -/
structure State.EntryPrepared (s : State) (l : LaneId) (n : SeqNum) (d : Nat) (t : State) : Prop where
  lane : (s.lane l).EntryBegun n d (marksAfter n (s.lane l).marks) (t.lane l)
  work : LaneWork l s t
  queue : s.QueueSame t

/-- The steps up to the late marks, the history being cleared or not (R19, R61, R62). -/
theorem State.entryPrepared (inOrder : (s.lane l).inOrder n) (gap : d = (s.lane l).gapBefore n) (ws : List Sample)
    (clears : Bool) :
    s.EntryPrepared l n d
      (State.lateMarks
        (if clears then
          (((s.watch l n ws).modLane l fun ln => ln.resolveSplices n).continuity l n).modDet l Detector.clearHistory
        else ((s.watch l n ws).modLane l fun ln => ln.resolveSplices n).continuity l n) l) := by
  have watched := s.missing_levelNoticed l n n ws
  have followed : ((s.watch l n ws).modLane l fun ln => ln.resolveSplices n).continuity l n
      = (s.watch l n ws).gapFollowed l n d := by
    rw [State.watch_eq, State.continuity_eq (by rw [watched.1]; exact inOrder), watched.2, gap]
  have begun : (s.lane l).EntryBegun n d
      ((s.lane l).marks.map fun (m : MarkEntry) =>
        if m.kind = .splice ∧ m.seq = n then { m with spanPending := false } else m)
      (((s.watch l n ws).gapFollowed l n d).lane l) := by
    obtain ⟨_, c, lane, same⟩ := s.classified_watch l n ws
    obtain ⟨⟨c2, e2, entry⟩, ⟨parcels, samples⟩, gaps, missing⟩ := (s.watch l n ws).entryBegun_gapFollowed l n d
    rw [lane] at entry
    refine ⟨⟨c2, e2, ?_⟩, ⟨parcels.trans (same _ (.inl rfl)), samples.trans (same _ (.inr (.inl rfl)))⟩, ?_, ?_⟩
    · rw [entry]
    · rw [gaps, same _ (.inr (.inr (.inl rfl)))]
    · rw [missing, same _ (.inr (.inr (.inr rfl)))]
  have work : LaneWork l s (((s.watch l n ws).modLane l fun ln => ln.resolveSplices n).continuity l n) :=
    ((s.watch_laneWork l n ws).trans (.entry _ _)).trans (State.continuity_laneWork _ l n)
  have queue : s.QueueSame (((s.watch l n ws).modLane l fun ln => ln.resolveSplices n).continuity l n) :=
    State.QueueSame.trans ((s.queueSame_watch l n ws).modLane l _) (State.queueSame_continuity _ l n)
  rw [← followed] at begun
  generalize ((s.watch l n ws).modLane l fun ln => ln.resolveSplices n).continuity l n = t at *
  have cleared : (s.lane l).EntryBegun n d
      ((s.lane l).marks.map fun (m : MarkEntry) =>
        if m.kind = .splice ∧ m.seq = n then { m with spanPending := false } else m)
      ((if clears then t.modDet l Detector.clearHistory else t).lane l)
      ∧ LaneWork l s (if clears then t.modDet l Detector.clearHistory else t)
      ∧ s.QueueSame (if clears then t.modDet l Detector.clearHistory else t) := by
    split
    · exact ⟨begun.classified (t.classified_modDet l _), work.trans (.modDet _ _), queue.modLane l _⟩
    · exact ⟨begun, work, queue⟩
  obtain ⟨lane, work, queue⟩ := cleared
  exact ⟨marksAfter_eq n _ ▸ lane.lateMarks, work.trans (State.lateMarks_laneWork _ l),
    queue.trans (State.queueSame_lateMarks _ l)⟩

end

end Sys2Proof.Machine
end

section
/-! The whole entry of a parcel into a hold line, before departure follows (R16, R19, R37 to R41, R60, R61, R72). -/

namespace Sys2Proof.Machine

section
variable {s t : State} {l : LaneId} {n : SeqNum} {ws : List Sample} {d : Nat}

/-! ### The values of the samples -/

theorem Lane.humInForce_of_restore {x : Lane} (route : x.config.route = .restore) : x.humInForce = x.config.humProfile :=
  if_pos route

theorem Lane.humInForce_of_other {x : Lane} (route : x.config.route ≠ .restore) : x.humInForce = none := if_neg route

/-- A parcel enters route RESTORE under the values of its run, from the phase its entry begins at (R37, R39 to R41). -/
theorem State.humAtEntry_of_restore {x : Lane} (route : x.config.route = .restore) {e : EntryPlan}
    (config : e.config = x.config) (offsets : e.spliceOffsets = x.spliceSamples n ws.length)
    (profile : ∀ k, x.config.humProfile = some k →
      t.profile k = if (s.profile k).swapPending = true then (s.profile k).swapped else s.profile k) :
    s.humAtEntry x n ws =
      ((t.entryRun e 0 (s.humBegun x).index ws).1,
        { s.humBegun x with index := (t.entryRun e 0 (s.humBegun x).index ws).2 }) := by
  unfold State.humAtEntry State.humBegun State.entryRun State.restartsAt
  rw [Lane.humInForce_of_restore route, config, offsets]
  cases named : x.config.humProfile with
  | none => rfl
  | some k =>
    have now := profile k named
    dsimp only
    by_cases pending : (s.profile k).swapPending = true
    · rw [if_pos pending] at now
      rw [now]
      simp only [pending, if_true]
      rfl
    · rw [if_neg pending] at now
      rw [now]
      simp only [pending]
      rfl

theorem State.humAtEntry_of_other {x : Lane} (route : x.config.route ≠ .restore) (s : State) :
    s.humAtEntry x n ws = (ws, s.humBegun x) := by
  unfold State.humAtEntry State.humBegun
  rw [Lane.humInForce_of_other route]

/-! ### The entry as a whole -/

/-- A parcel has entered lane l of part s whole, and departure has not begun: part u (R16). -/
structure State.EntryMade (s : State) (l : LaneId) (n : SeqNum) (ws : List Sample) (resumed : Bool) (d : Nat)
    (u : State) : Prop where
  lane : ∃ c e, u.lane l =
    { s.lane l with
      expected := some (n + 1)
      nextPosition := (s.lane l).nextPosition + ws.length
      marks := marksAfter n (s.lane l).marks
      counters := c
      hum := (s.humAtEntry (s.lane l) n ws).2
      det := e
      held := (s.lane l).held ++
        [{ seq := n, firstPosition := (s.lane l).nextPosition, count := ws.length, departed := 0
           route := (s.lane l).config.route, fallback := (s.lane l).config.fallback, resumed := resumed
           samples := (s.humAtEntry (s.lane l) n ws).1 }] }
  parcels : (u.lane l).counter .parcelsEntered = satBump ((s.lane l).counter .parcelsEntered) 1
  samples : (u.lane l).counter .samplesEntered = satBump ((s.lane l).counter .samplesEntered) ws.length
  gaps : (u.lane l).counter .gaps = satBump ((s.lane l).counter .gaps) (if d = 0 then 0 else 1)
  missing : (u.lane l).counter .missingParcels = satBump ((s.lane l).counter .missingParcels) d
  profiles : ∀ k : ProfileId, u.profile k =
    if s.SwapTaken l (s.lane l).humInForce k then (s.profile k).swapped else s.profile k
  shifted : s.Shifted l u
  share : LaneShare l s u
  checker : u.checker = s.checker
  queue : s.QueueSame u

/-- The part with the parcel's hum profile taken up (R37 to R40). -/
structure State.EntryOpened (s : State) (l : LaneId) (n : SeqNum) (d : Nat) (t : State) : Prop where
  lane : (s.lane l).EntryBegun n d (marksAfter n (s.lane l).marks) { t.lane l with hum := (s.lane l).hum }
  hum : (t.lane l).hum = s.humBegun (s.lane l)
  profiles : ∀ k : ProfileId, t.profile k =
    if s.SwapTaken l (s.lane l).humInForce k then (s.profile k).swapped else s.profile k
  shifted : s.Shifted l t
  share : LaneShare l s t
  checker : t.checker = s.checker
  queue : s.QueueSame t

theorem LaneWork.shifted (h : LaneWork l s t) : s.Shifted l t :=
  .of_lane l h.frame.others h.frame.profiles

/-- A change of lane l outside its records, its state and its phase profile keeps what its entry has opened. -/
theorem State.EntryOpened.work {u : State} (h : s.EntryOpened l n d t) (work : LaneWork l t u) (queue : t.QueueSame u)
    (same : (t.lane l).Classified (u.lane l)) : s.EntryOpened l n d u where
  lane := by
    obtain ⟨e, c, entry, kept⟩ := same
    refine h.lane.classified ⟨e, c, ?_, fun k hk => ?_⟩
    · rw [entry]
    · exact kept k hk
  hum := by
    obtain ⟨e, c, entry, -⟩ := same
    rw [entry]
    exact h.hum
  profiles k := (congrArg (fun ps : Vector HumProfile 8 => ps[k]) work.frame.profiles).trans (h.profiles k)
  shifted := h.shifted.trans work.shifted
  share := h.share.trans work.share
  checker := work.frame.checker.trans h.checker
  queue := h.queue.trans queue

/-- The hum profile in force is taken up (R37 to R40). -/
theorem State.EntryPrepared.opened (h : s.EntryPrepared l n d t) :
    s.EntryOpened l n d (t.humBegin l (s.lane l).humInForce n) := by
  obtain ⟨begun, work, queue⟩ := h
  have frame := work.frame
  obtain ⟨c, e, entry⟩ := begun.entry
  have inForce : (t.lane l).humInForce = (s.lane l).humInForce := by rw [entry]; rfl
  have lane := t.lane_humBegin l n
  rw [inForce] at lane
  have profile (k : ProfileId) : t.profile k = s.profile k :=
    congrArg (fun ps : Vector HumProfile 8 => ps[k]) frame.profiles
  refine ⟨?_, ?_, fun k => ?_, work.shifted.trans (t.shifted_humBegin l _ n), work.share.trans (t.humBegin_share l l _ n),
    (t.checker_humBegin l _ n).trans frame.checker, queue.trans (t.queueSame_humBegin l _ n)⟩
  · rw [lane]
    have same : ({ t.lane l with hum := (s.lane l).hum } : Lane) = t.lane l := by rw [entry]
    change (s.lane l).EntryBegun n d _ { t.lane l with hum := (s.lane l).hum }
    rw [same]
    exact begun
  · rw [lane]
    change t.humBegun (t.lane l) = s.humBegun (s.lane l)
    unfold State.humBegun
    rw [inForce, entry]
    simp only [profile]
  · rw [State.profile_humBegin]
    refine if_congr ?_ (congrArg _ (profile k)) (profile k)
    unfold State.SwapTaken
    have users : (∀ m : LaneId, m ≠ l → (t.lane m).uses k = false) ↔ ∀ m : LaneId, m ≠ l → (s.lane m).uses k = false :=
      forall₂_congr fun m hm => by rw [frame.others m hm]
    rw [profile, entry, users]

/-! ### The entry on each route -/

/-- The counts of an entry (R17). -/
theorem State.EntryOpened.made {u : State} {resumed : Bool} (opened : s.EntryOpened l n d t) (work : LaneWork l t u)
    (queue : t.QueueSame u)
    (lane : ∃ y, (t.lane l).Classified y ∧ u.lane l =
      { y with
        hum := (s.humAtEntry (s.lane l) n ws).2
        nextPosition := (t.lane l).nextPosition + ws.length
        held := (t.lane l).held ++
          [{ seq := n, firstPosition := (t.lane l).nextPosition, count := ws.length, departed := 0
             route := (s.lane l).config.route, fallback := (s.lane l).config.fallback, resumed := resumed
             samples := (s.humAtEntry (s.lane l) n ws).1 }] }) :
    s.EntryMade l n ws resumed d (u.countEntered l ws.length) := by
  obtain ⟨y, classified, entry⟩ := lane
  obtain ⟨⟨c, e, begun⟩, ⟨parcels, samples⟩, gaps, missing⟩ := opened.lane.classified
    (z := { y with hum := (s.lane l).hum }) (by
      obtain ⟨_, _, rfl, same⟩ := classified
      exact ⟨_, _, rfl, same⟩)
  have counted : (u.countEntered l ws.length).lane l
      = ((u.lane l).bump .parcelsEntered 1).bump .samplesEntered ws.length := by
    unfold State.countEntered
    rw [State.lane_count_same, State.lane_count_same]
  have own (k : LaneCounter) : (u.lane l).counter k = ({ y with hum := (s.lane l).hum } : Lane).counter k := by
    rw [entry]
    rfl
  have counts := u.countEntered_laneWork l ws.length
  have all := work.trans counts
  refine ⟨?_, ?_, ?_, ?_, ?_, fun k => ?_, opened.shifted.trans all.shifted, opened.share.trans all.share,
    all.frame.checker.trans opened.checker, opened.queue.trans queue⟩
  · have line : (t.lane l).held = (s.lane l).held ∧ (t.lane l).nextPosition = (s.lane l).nextPosition := by
      have held := congrArg Lane.held begun
      have next := congrArg Lane.nextPosition begun
      obtain ⟨_, _, rfl, -⟩ := classified
      exact ⟨held, next⟩
    have whole : y = { s.lane l with
        expected := some (n + 1), marks := marksAfter n (s.lane l).marks, counters := c, det := e, hum := y.hum } :=
      congrArg (fun z : Lane => { z with hum := y.hum }) begun
    rw [counted, entry, line.1, line.2, whole]
    exact ⟨_, _, rfl⟩
  · rw [counted, Lane.counter_bump_ne _ _ (by decide), Lane.counter_bump_same, own, parcels]
  · rw [counted, Lane.counter_bump_same, Lane.counter_bump_ne _ _ (by decide), own, samples]
  · rw [counted, Lane.counter_bump_ne _ _ (by decide), Lane.counter_bump_ne _ _ (by decide), own, gaps]
  · rw [counted, Lane.counter_bump_ne _ _ (by decide), Lane.counter_bump_ne _ _ (by decide), own, missing]
  · exact (congrArg (fun ps : Vector HumProfile 8 => ps[k]) all.frame.profiles).trans (opened.profiles k)

/-- A RUNNING lane's entry on route RESTORE (R16). -/
theorem State.entryMade_restore (inOrder : (s.lane l).inOrder n) (gap : d = (s.lane l).gapBefore n) (some : ws ≠ [])
    (resumed : Bool) (route : (s.lane l).config.route = .restore) :
    ∃ u, s.EntryMade l n ws resumed d u ∧ s.enterRestore l n ws resumed = u.depart l := by
  have prepared := State.entryPrepared inOrder gap ws ((s.lane l).entryPlan n ws resumed).gap
  generalize ht : State.lateMarks _ l = t at prepared
  have opened := prepared.opened
  have begun : s.prepareRestore l ((s.lane l).entryPlan n ws resumed) ws
      = t.humBegin l (s.lane l).humInForce n := by
    rw [← ht, Lane.humInForce_of_restore route]
    rfl
  generalize t.humBegin l (s.lane l).humInForce n = v at opened begun
  obtain ⟨y, classified, lane⟩ := v.lane_enterSamples l ((s.lane l).entryPlan n ws resumed) some
  have values := State.humAtEntry_of_restore (s := s) (t := v) (ws := ws) (n := n) (x := s.lane l)
    (e := (s.lane l).entryPlan n ws resumed) route rfl (Lane.spliceOffsets_eq _ _ _) fun k named => by
      have inForce := (Lane.humInForce_of_restore route).trans named
      rw [opened.profiles, inForce]
      exact if_congr ⟨fun h => h.1, fun h => ⟨h, .inl rfl⟩⟩ rfl rfl
  have made := opened.made (ws := ws) (resumed := resumed)
    (State.enterSamples_laneWork ws 0 l ((s.lane l).entryPlan n ws resumed) v)
    (State.queueSame_enterSamples ws 0 l ((s.lane l).entryPlan n ws resumed) v) ⟨y, classified, by
      rw [lane, values, opened.hum]
      rfl⟩
  refine ⟨_, made, ?_⟩
  unfold State.enterRestore
  dsimp only
  rw [begun]

/-- A RUNNING lane's entry on route PASS, MUTE or GENERATE (R16, R70). -/
theorem State.entryMade_plain (inOrder : (s.lane l).inOrder n) (gap : d = (s.lane l).gapBefore n)
    (resumed : Bool) (route : (s.lane l).config.route ≠ .restore) :
    ∃ u, s.EntryMade l n ws resumed d u ∧ s.enterPlain l n ws resumed = u.depart l := by
  have begun := State.entryPrepared inOrder gap ws false
  simp only [Bool.false_eq_true, if_false] at begun
  generalize ht : State.lateMarks _ l = t at begun
  have cut : s.EntryPrepared l n d ((t.modDet l fun e => e.plainEntry ws).releaseRuns l) :=
    ⟨begun.lane.classified ((t.classified_modDet l _).trans (State.classified_releaseRuns _ l)),
      (begun.work.trans (.modDet t _)).trans (State.releaseRuns_laneWork _ l),
      (begun.queue.modLane l _).trans (State.queueSame_releaseRuns _ l)⟩
  have opened := cut.opened
  rw [Lane.humInForce_of_other route] at opened
  have entered : s.enterPlain l n ws resumed = State.depart
      (State.countEntered
        ((((t.modDet l fun e => e.plainEntry ws).releaseRuns l).humBegin l none n).modLane l
          fun ln => ln.appendParcel n ws resumed) l ws.length) l := by
    rw [← ht, ← State.continuity_resolveSplices]
    rfl
  generalize ((t.modDet l fun e => e.plainEntry ws).releaseRuns l).humBegin l none n = v at opened entered
  have config : (v.lane l).config = (s.lane l).config := by
    obtain ⟨_, _, entry⟩ := opened.lane.entry
    have same := congrArg Lane.config entry
    exact same
  have made := opened.made (ws := ws) (resumed := resumed) (u := v.modLane l fun ln => ln.appendParcel n ws resumed)
    (.entry v _) (State.QueueSame.modLane (.refl v) l _) ⟨v.lane l, .refl _, by
      rw [State.lane_modLane_same, State.humAtEntry_of_other route, ← opened.hum, ← config]
      rfl⟩
  exact ⟨_, made, entered⟩

end

end Sys2Proof.Machine
end

section
/-! OFFER of a SAMPLES parcel that enters a hold line (R15, R16, R19, R73). -/

namespace Sys2Proof.Machine

section
variable {s t b u : State} {l : LaneId} {n : SeqNum} {ws : List Sample} {d : Nat} {resumed : Bool}

/-! ### Departure of a RUNNING lane -/

/-- Departure of a lane that is not flushing does no more than the lane's own work: it settles nothing (R10, R78). -/
theorem State.depart_running (running : (s.lane l).state = .running false) :
    LaneWork l s (s.depart l) ∧ (s.lane l).Carried ((s.depart l).lane l) := by
  have work : LaneWork l s ((State.departUpTo (s.lane l).occupancy l s).placeTrailingMarks l) :=
    (State.departUpTo_laneWork _ l s).trans (State.placeTrailingMarks_laneWork _ l)
  have still := work.frame.state.trans running
  have same : s.depart l = (State.departUpTo (s.lane l).occupancy l s).placeTrailingMarks l :=
    State.settle_none fun done => by
      have flushing := done.2
      rw [still] at flushing
      exact nomatch flushing
  rw [same]
  exact ⟨work, (State.carried_departUpTo _ l s).trans (State.lineKept_placeTrailingMarks _ l).1⟩

/-! ### The part about to take the parcel -/

/-- Part b is part s with lane l about to take the head parcel: its entry, the generator and head waiting may differ
(R8, R120, R140). -/
structure State.Takes (s : State) (l : LaneId) (b : State) : Prop where
  resetLine : b.resetLine = s.resetLine
  deliveryReady : b.deliveryReady = s.deliveryReady
  ramps : b.ramps = s.ramps
  control : b.control = s.control
  pending : b.pending = s.pending
  delivery : b.delivery = s.delivery
  repair : b.repair = s.repair
  waitList : b.waitList = s.waitList
  checker : b.checker = s.checker
  profiles : b.profiles = s.profiles
  others : ∀ m : LaneId, m ≠ l → b.lane m = s.lane m
  config : (b.lane l).config = (s.lane l).config
  running : (b.lane l).state = .running false

theorem State.Takes.self (running : (s.lane l).state = .running false) : s.Takes l s :=
  ⟨rfl, rfl, rfl, rfl, rfl, rfl, rfl, rfl, rfl, rfl, fun _ _ => rfl, rfl, running⟩

theorem State.Takes.enterRunning (s : State) (l : LaneId) : s.Takes l (s.enterRunning l) := by
  have entry := s.lane_enterRunning_same l
  have others (m : LaneId) (hm : m ≠ l) : (s.enterRunning l).lane m = s.lane m := by
    rw [State.lane_enterRunning, if_neg hm]
  have config : ((s.enterRunning l).lane l).config = (s.lane l).config := by rw [entry]; rfl
  have running : ((s.enterRunning l).lane l).state = .running false := by rw [entry]; rfl
  have part := s.enterRunning_eq l
  exact ⟨by rw [part], by rw [part], by rw [part], by rw [part], by rw [part], by rw [part], by rw [part], by rw [part],
    by rw [part], by rw [part], others, config, running⟩

theorem State.Takes.profile (h : s.Takes l b) (k : ProfileId) : b.profile k = s.profile k :=
  congrArg (fun ps : Vector HumProfile 8 => ps[k]) h.profiles

/-- The hum canceller works on the same values in both parts (R39). -/
theorem State.Takes.humAtEntry (h : s.Takes l b) (x : Lane) : b.humAtEntry x n ws = s.humAtEntry x n ws := by
  unfold State.humAtEntry
  simp only [h.profile]

/-- A lane's share of the work, told of the part with the head gone from its intake queue (R139). -/
theorem State.Takes.share (h : s.Takes l b) (share : LaneShare l b t) (p : IntakePort) :
    LaneShare l { s with intake := p, generator := b.generator } { t with intake := p } := by
  obtain ⟨frame, generator, other, repair, inProgress, waitList, counters⟩ := share
  obtain ⟨reset, ready, ramps, control, pending, -, settings, config, samples, capacity⟩ := frame
  have configs (m : LaneId) : (b.lane m).config = (s.lane m).config := by
    by_cases hm : m = l
    · subst hm
      exact h.config
    · rw [h.others m hm]
  rw [h.delivery] at settings samples capacity counters
  rw [h.repair] at repair inProgress
  rw [h.waitList] at waitList
  exact ⟨⟨reset.trans h.resetLine, ready.trans h.deliveryReady, ramps.trans h.ramps, control.trans h.control,
    pending.trans h.pending, rfl, settings, fun m => (config m).trans (configs m), samples, capacity⟩,
    generator, other, repair, inProgress, waitList, counters⟩

/-- A parcel whose entry is made of these steps enters the hold line (R16, R70 to R72, R78). -/
theorem State.EntryMade.entersHoldLine (made : b.EntryMade l n ws resumed d u) (takes : s.Takes l b)
    {rest : List InParcel}
    (offered : exec .offer s = .next { u.depart l with intake := s.intake.headGone rest .taken }) :
    EntersHoldLine s l (b.lane l) b.generator n ws resumed rest d := by
  obtain ⟨c, e, entry⟩ := made.lane
  have still : (u.lane l).state = .running false := by rw [entry]; exact takes.running
  obtain ⟨work, carried⟩ := State.depart_running still
  have counter (k : LaneCounter) (own : k ≠ .runsRepaired ∧ k ≠ .runsUnrepaired ∧ k ≠ .lateSplices) :
      ((u.depart l).lane l).counter k = (u.lane l).counter k := carried.counters k own.1 own.2.1 own.2.2
  refine ⟨u, { u.depart l with intake := s.intake.headGone rest .taken }, offered, rfl, ?_⟩
  generalize u.depart l = v at work carried counter ⊢
  have lanes (m : LaneId) : ({ v with intake := s.intake.headGone rest .taken } : State).lane m = v.lane m := rfl
  have profile (k : ProfileId) : ({ v with intake := s.intake.headGone rest .taken } : State).profile k = u.profile k :=
    congrArg (fun ps : Vector HumProfile 8 => ps[k]) work.frame.profiles
  refine ⟨?_, ?_, ?_, ?_, ?_, ?_, ?_, ?_, ?_, ?_, ?_, ?_, ?_, ?_, ?_⟩
  · rw [← takes.humAtEntry, entry]
    rfl
  · exact made.queue.2.trans (congrArg DeliveryPort.samples takes.delivery)
  · exact made.queue.1.trans takes.waitList
  · rw [lanes, carried.state, still]
  · rw [lanes, carried.allocation, entry]
  · rw [lanes, carried.expected, entry]
  · rw [lanes, carried.nextPosition, entry]
  · rw [lanes, counter _ (by decide), made.parcels]
  · rw [lanes, counter _ (by decide), made.samples]
  · rw [lanes, counter _ (by decide), made.gaps]
  · rw [lanes, counter _ (by decide), made.missing]
  · intro m hm
    have shift : s.phaseAfter { v with intake := s.intake.headGone rest .taken } m = b.phaseAfter u m := by
      unfold State.phaseAfter
      rw [takes.others m hm]
      simp only [takes.profile, profile]
    rw [lanes, work.frame.others m hm, made.shifted.others m hm, takes.others m hm, shift]
  · intro k
    have users : (∀ m : LaneId, m ≠ l → (b.lane m).uses k = false) ↔ ∀ m : LaneId, m ≠ l → (s.lane m).uses k = false :=
      forall₂_congr fun m hm => by rw [takes.others m hm]
    rw [profile, made.profiles]
    refine if_congr ?_ (congrArg _ (takes.profile k)) (takes.profile k)
    unfold State.SwapTaken
    rw [takes.profile, users]
  · refine (takes.share (made.share.trans work.share) _).kept ?_
    have runs : (v.lane l).state.isRunning = true := by rw [carried.state, still]; rfl
    have left : ¬(s.checker.lane = some l ∧ (s.lane l).state.isRunning = true ∧ (v.lane l).state.isRunning = false) :=
      fun h => by
        rw [runs] at h
        exact nomatch h.2.2
    have same : v.checker = s.checker := (work.frame.checker.trans made.checker).trans takes.checker
    exact same.trans (congrArg (fun st => ({ s.checker with state := st } : Checker)) (if_neg left).symm)
  · rfl

/-! ### The offer -/

/-- A parcel that a lane with a hold line takes enters it, whichever its route (R15, R16). -/
theorem State.Takes.entersHoldLine (takes : s.Takes l b) (inOrder : (b.lane l).inOrder n)
    (gap : d = (b.lane l).gapBefore n) (some : ws ≠ [])
    (route : (s.lane l).config.route ≠ .echo ∧ (s.lane l).config.route ≠ .check) {rest : List InParcel}
    (offered : exec .offer s = .next { b.takeParcel l n ws resumed with intake := s.intake.headGone rest .taken }) :
    EntersHoldLine s l (b.lane l) b.generator n ws resumed rest d := by
  by_cases restore : (b.lane l).config.route = .restore
  · obtain ⟨u, made, enters⟩ := State.entryMade_restore inOrder gap some resumed restore
    refine made.entersHoldLine takes (offered.trans ?_)
    rw [← enters]
    unfold State.takeParcel
    rw [restore]
  · obtain ⟨u, made, enters⟩ := State.entryMade_plain (ws := ws) inOrder gap resumed restore
    refine made.entersHoldLine takes (offered.trans ?_)
    rw [← enters, State.takeParcel_of_plain]
    rw [← takes.config] at route
    cases own : (b.lane l).config.route <;> simp_all

end

end Sys2Proof.Machine
end

section
/-! The statements about offered SAMPLES parcels that a lane takes (R8, R15 to R17, R19, R70 to R73, R120). -/

namespace Sys2Proof.Machine

section
variable {s : State} {l : LaneId} {n : SeqNum} {ws : List Sample} {rest : List InParcel}

/-- A lane that enters RUNNING expects no sequence number, so no parcel is out of order and none is missing (R8, R19). -/
theorem Lane.started_inOrder (x : Lane) (n : SeqNum) : x.started.inOrder n ∧ 0 = x.started.gapBefore n :=
  ⟨fun _ absent => (nomatch absent), rfl⟩

/-- The positions and the counts of a parcel that a starting lane without a hold line takes (R8, R17). -/
theorem State.enterRunning_passed (s : State) (l : LaneId) (n : SeqNum) (k : Nat) :
    (s.enterRunning l).passed l n k =
      { s with
        lanes := s.lanes.set l ((s.lane l).started.parcelCounted n k 0)
        generator := s.generator.enteredBy l (s.lane l)
        intake := s.intake.offeredAgain l } := by
  have entry := s.lane_enterRunning_same l
  obtain ⟨inOrder, gap⟩ := (s.lane l).started_inOrder n
  rw [State.passed_eq (d := 0) (by rw [entry]; exact inOrder) (by rw [entry]; exact gap), entry]
  exact State.enterRunning_withLane s l _

end

/-- Settles O26: the lane enters RUNNING, and takes the parcel as a RUNNING lane does. -/
theorem samplesStartOrResumeALane : Obligations.SamplesStartOrResumeALane := by
  unfold Obligations.SamplesStartOrResumeALane
  intro s l n ws rest ln g base ready hln row some short hg hbase
  subst hln
  have answer := State.answer_starting (n := n) short row
  have entry := s.lane_enterRunning_same l
  have config : ((s.enterRunning l).lane l).config = (s.lane l).config := by rw [entry]; rfl
  have passed := s.enterRunning_passed l n ws.length
  obtain ⟨inOrder, gap⟩ := (s.lane l).started_inOrder n
  refine ⟨fun echo room => ?_, fun check => ?_, fun notEcho notCheck => ?_⟩
  · have free : ¬((s.lane l).config.route = .echo ∧ s.sampleRoom = false) := fun h => by
      rw [s.sampleRoom_iff.2 room] at h
      exact nomatch h.2
    have taken : (s.enterRunning l).takeParcel l n ws (decide ((s.lane l).state = .stalled))
        = (s.enterRunning l).takeEcho l n ws (decide ((s.lane l).state = .stalled)) := by
      unfold State.takeParcel
      rw [config, echo]
    rw [if_neg free, taken, State.takeEcho_eq, passed] at answer
    refine (exec_offer_removes ready (.inl ⟨rfl, rfl⟩) answer (b := _) rfl).trans ?_
    rw [hbase, hg]
    rfl
  · have waits : ¬((s.lane l).config.route = .echo ∧ s.sampleRoom = false) := fun h => by
      rw [check] at h
      exact nomatch h.1
    have taken : (s.enterRunning l).takeParcel l n ws (decide ((s.lane l).state = .stalled))
        = ((s.enterRunning l).passed l n ws.length).checkerParcel l n ws := by
      have given := State.takeCheck_eq (s := s.enterRunning l) (l := l) (n := n) (d := 0) (by rw [entry]; exact inOrder)
        (by rw [entry]; exact gap) ws
      unfold State.takeParcel
      rw [config, check]
      exact given
    have own : ((s.enterRunning l).passed l n ws.length).checker = s.checker := by rw [passed]
    have acted : ((s.enterRunning l).passed l n ws.length).withIntake
        (((s.enterRunning l).passed l n ws.length).intake.dequeue .taken) = base := by
      have queue : (s.intake.offeredAgain l).queue = .samples l n ws :: rest := ready.2.1
      rw [passed, IntakePort.dequeue_eq _ queue, hbase, hg]
      rfl
    rw [if_neg waits, taken] at answer
    rw [exec_offer_of_answer ready answer]
    by_cases attached : s.checker.lane = Option.some l
    · rw [State.actOn_checkerParcel (by rw [own]; exact attached), acted, if_pos attached]
    · rw [if_neg attached]
      unfold State.checkerParcel
      rw [own, if_neg attached]
      exact congrArg Host.Outcome.next acted
  · have takes := State.Takes.enterRunning s l
    have offered := exec_offer_enters (resumed := decide ((s.lane l).state = .stalled)) ready short
      (.inr ⟨row, rfl, rfl⟩) ⟨notEcho, notCheck⟩
    have enters := takes.entersHoldLine (d := 0) (by rw [entry]; exact inOrder) (by rw [entry]; exact gap) some
      ⟨notEcho, notCheck⟩ offered
    have generator : (s.enterRunning l).generator = g := by
      rw [State.enterRunning_eq, hg]
      rfl
    rw [entry, generator] at enters
    exact enters

section
variable {s : State} {l : LaneId} {n : SeqNum} {d : Nat}

theorem State.gapNoticed_withLane (s : State) (l : LaneId) (n : SeqNum) (d : Nat) (x : Lane) :
    (s.withLane l x).gapNoticed l n d = (s.gapNoticed l n d).withLane l x := by
  unfold State.gapNoticed
  split <;> rfl

theorem State.lane_gapNoticed (s : State) (l : LaneId) (n : SeqNum) (d : Nat) (m : LaneId) :
    (s.gapNoticed l n d).lane m = s.lane m := by
  unfold State.gapNoticed
  split <;> rfl

/-- The lane as the continuity step of a parcel leaves it, d parcels missing before it (R19). -/
def Lane.gapCounted (x : Lane) (n : SeqNum) (d : Nat) : Lane :=
  { x with
    expected := some (n + 1)
    counters := if d = 0 then x.counters else bumpAt (bumpAt x.counters 7 1) 8 d }

/-- The continuity step on a lane without marks (R19). -/
theorem State.gapFollowed_of_unmarked (marks : (s.lane l).marks = []) :
    s.gapFollowed l n d = (s.gapNoticed l n d).withLane l ((s.lane l).gapCounted n d) := by
  rw [← State.gapNoticed_withLane]
  unfold State.gapFollowed State.gapNoticed Lane.gapCounted
  dsimp only
  by_cases none : d = 0
  · simp only [none, if_true, marks, List.map_nil]
  · simp only [none, if_false, State.issue_withLane, State.lane_withLane_same, State.withLane_withLane]
    have kept : (((s.lane l).counted .gaps 1).counted .missingParcels d).marks = [] := marks
    rw [kept, List.map_nil, ← marks]
    rfl

theorem State.lateMarksFound_of_unmarked (marks : (s.lane l).marks = []) : s.lateMarksFound l n = s := by
  unfold State.lateMarksFound
  simp only [marks, List.filter_nil, List.foldl_nil, List.map_nil]
  rw [← marks]
  exact State.withLane_self s l

theorem State.humBegin_none_of_none (profile : (s.lane l).hum.profile = none) : s.humBegin l none n = s := by
  have same : (s.modHum l fun h => { h with profile := none }) = s := by
    change s.withLane l { s.lane l with hum := { (s.lane l).hum with profile := none } } = s
    rw [← profile]
    exact State.withLane_self s l
  change (s.modHum l fun h => { h with profile := none }).userLeft (s.lane l).hum.profile = s
  rw [profile, same]
  rfl

/-- A parcel enters an empty lane on route PASS, MUTE or GENERATE (R70, R72). -/
theorem State.plainEntered_of_empty (held : (s.lane l).held = []) (runs : (s.lane l).det.runs = [])
    (marks : (s.lane l).marks = []) (profile : (s.lane l).hum.profile = none)
    (watch : (s.lane l).config.watchEnable = false) (ws : List Sample) :
    s.plainEntered l n ws false d =
      (s.gapNoticed l n d).withLane l
        { (s.lane l).parcelCounted n ws.length d with
          det :=
            { h1 := 0, h2 := 0, valid := 0, lastEntered := ws.getLast?, calmCount := 0, calmStart := none
              forcedRemainder := 0
              forcedCauses := { detected := false, splice := false, junction := false, conceal := false }
              runs := [] }
          held :=
            [{ seq := n, firstPosition := (s.lane l).nextPosition, count := ws.length, departed := 0
               route := (s.lane l).config.route, fallback := (s.lane l).config.fallback, resumed := false
               samples := ws }] } := by
  have quiet : s.levelNoticed l n ws = s := by
    unfold State.levelNoticed LaneConfig.levelHit
    rw [watch]
    rfl
  have followed := State.gapFollowed_of_unmarked (n := n) (d := d) marks
  have found : ((s.gapNoticed l n d).withLane l ((s.lane l).gapCounted n d)).lateMarksFound l n
      = (s.gapNoticed l n d).withLane l ((s.lane l).gapCounted n d) :=
    State.lateMarksFound_of_unmarked (by rw [State.lane_withLane_same]; exact marks)
  unfold State.plainEntered
  dsimp only
  rw [quiet, followed, found, State.lane_withLane_same, State.withLane_withLane]
  have none : ((s.lane l).gapCounted n d).det.runs = [] := runs
  rw [none, List.map_nil, State.releaseRuns_none (by rw [State.lane_withLane_same]; simp),
    State.humBegin_none_of_none (by rw [State.lane_withLane_same]; exact profile), State.lane_withLane_same,
    State.withLane_withLane]
  unfold State.entryCounted
  rw [State.lane_withLane_same, State.withLane_withLane]
  have line : ((s.lane l).gapCounted n d).held = [] := held
  rw [line]
  rfl

end

/-- Settles O25: the first clause by the entry's rule, the second by the steps of an entry that finds an empty lane. -/
theorem heldParcelsEnterTheirLane : Obligations.HeldParcelsEnterTheirLane := by
  unfold Obligations.HeldParcelsEnterTheirLane
  refine ⟨fun s l n ws rest ln d ready hln running notEcho notCheck some short inOrder gap room => ?_,
    fun s l n ws rest ln d ready hln running plain some short fits roomy inOrder gap held runs marks profile watch => ?_⟩
  · subst hln
    have offered := exec_offer_enters (resumed := false) ready short (.inl ⟨running, inOrder, rfl, rfl, room⟩)
      ⟨notEcho, notCheck⟩
    exact (State.Takes.self running).entersHoldLine inOrder gap some ⟨notEcho, notCheck⟩ offered
  · subst hln
    have route : (s.lane l).config.route ≠ .echo ∧ (s.lane l).config.route ≠ .check := by
      constructor
      · intro h; simp [h] at plain
      · intro h; simp [h] at plain
    have room : (s.lane l).occupancy + ws.length ≤ (s.lane l).allocation := by
      rw [Lane.occupancy, held]
      simpa using roomy
    have offered := exec_offer_enters (resumed := false) ready short (.inl ⟨running, inOrder, rfl, rfl, room⟩) route
    rw [State.takeParcel_of_plain plain, State.enterPlain_eq inOrder gap,
      State.plainEntered_of_empty held runs marks profile watch] at offered
    generalize hx : ({ (s.lane l).parcelCounted n ws.length d with det := _, held := _ } : Lane) = x at offered
    have state : x.state = .running false := by rw [← hx]; exact running
    have noMarks : x.marks = [] := by rw [← hx]; exact marks
    have still : ¬x.state.isFlushing = true := by rw [state]; exact Bool.false_ne_true
    have stop : ¬x.canDepart = true := fun can => by
      obtain ⟨p, ps, line, due, -⟩ := (Lane.canDepart_iff x).1 can
      have late := due.resolve_left still
      rw [← hx] at line late
      obtain ⟨rfl, -⟩ := List.cons.inj line
      have length := List.length_pos_iff.2 some
      change (s.lane l).config.lookahead ≤ (s.lane l).nextPosition + ws.length - 1 - ((s.lane l).nextPosition + 0) at late
      omega
    rw [State.depart_stay (by rw [State.lane_withLane_same]; exact stop)
      (by rw [State.lane_withLane_same]; exact fun trails => still ((Lane.trailing_iff x).1 trails).1)
      (by rw [State.lane_withLane_same]; exact fun rests => still rests.2)] at offered
    rw [offered, ← hx]
    refine congrArg Host.Outcome.next ?_
    unfold State.gapNoticed
    split <;> rfl

end Sys2Proof.Machine
end

section
/-! The deadline of an offered SAMPLES parcel (R86). -/

namespace Sys2Proof.Machine

/-! ### The runs that hold samples back -/

/-- The number of QUEUED and REPAIRING runs of a lane. -/
def Lane.blockers (x : Lane) : Nat := x.det.runs.countP RunRecord.blocks

theorem Lane.blockers_le_length (x : Lane) : x.blockers ≤ x.det.runs.length := List.countP_le_length

/-- Releases and overtakings bring about no run that holds samples back. -/
theorem RunsAfter.countP_blocks_le {rs rs' : List RunRecord} (h : RunsAfter rs rs') :
    rs'.countP RunRecord.blocks ≤ rs.countP RunRecord.blocks := by
  obtain ⟨f, sub, hf⟩ := h
  refine sub.countP_le.trans ?_
  rw [List.countP_map]
  refine List.countP_mono_left fun r _ blocks => ?_
  change (f r).blocks = true at blocks
  unfold RunRecord.blocks at blocks ⊢
  rcases (hf r).2 with same | ⟨-, overtaken⟩
  · rw [← same]
    exact blocks
  · rw [overtaken] at blocks
    exact nomatch blocks

/-- A run that held samples back and is given up counts no longer. -/
theorem Detector.countP_giveUp_lt (d : Detector) {r : RunRecord} (listed : r ∈ d.runs) (blocks : r.blocks = true) :
    (d.modRun r.number RunRecord.giveUp).runs.countP RunRecord.blocks < d.runs.countP RunRecord.blocks := by
  obtain ⟨xs, ys, split⟩ := List.append_of_mem listed
  have fewer (zs : List RunRecord) :
      zs.countP (RunRecord.blocks ∘ fun q => if q.number = r.number then q.giveUp else q) ≤ zs.countP RunRecord.blocks :=
    List.countP_mono_left fun q _ still => by
      dsimp only [Function.comp] at still
      split at still
      · exact nomatch still
      · exact still
  have before := fewer xs
  have after := fewer ys
  have given : r.giveUp.blocks = false := rfl
  unfold Detector.modRun
  rw [split, List.countP_map, List.countP_append, List.countP_append, List.countP_cons, List.countP_cons]
  simp only [Function.comp, if_true, given, blocks, Bool.false_eq_true, if_false] at before after ⊢
  omega

section
variable {s : State} {l : LaneId} {r : RunRecord} {c : Nat}

/-! ### One deadline -/

/-- The part after the steps of a deadline that come before departure (R86). -/
def State.gaveUp (s : State) (l : LaneId) (n : Nat) : State :=
  ((s.dropRepairEntry l n).abandonRepair l n).modDet l fun d => d.modRun n RunRecord.giveUp

theorem State.takeDeadline_eq (s : State) (l : LaneId) (n : Nat) : s.takeDeadline l n = (s.gaveUp l n).depart l := rfl

theorem State.lane_gaveUp (s : State) (l : LaneId) (n : Nat) :
    (s.gaveUp l n).lane l = { s.lane l with det := (s.lane l).det.modRun n RunRecord.giveUp } := by
  have dropped : ((s.dropRepairEntry l n).abandonRepair l n).lane l = s.lane l := by
    unfold State.abandonRepair
    split
    · exact State.lane_wake _ l l
    · rfl
  unfold State.gaveUp State.modDet
  rw [State.lane_modLane_same, dropped]

theorem State.gaveUp_laneWork (s : State) (l : LaneId) (n : Nat) : LaneWork l s (s.gaveUp l n) :=
  ((s.dropRepairEntry_laneWork l n).trans (State.abandonRepair_laneWork _ l n)).trans (.modDet _ _)

/-- With no head waiting, abandoning the repair in progress changes the repair unit only. -/
theorem State.gaveUp_eq (free : s.intake.headWaiting = false) (n : Nat) :
    s.gaveUp l n =
      { s with
        repair :=
          { queue := s.repair.queue.filter fun e => decide (e ≠ { lane := l, run := n })
            inProgress := if s.repair.inProgress = some { lane := l, run := n } then none else s.repair.inProgress }
        lanes := s.lanes.set l { s.lane l with det := (s.lane l).det.modRun n RunRecord.giveUp } } := by
  have entry : ∀ e : RepairEntry, (!(decide (e.lane = l) && decide (e.run = n))) = decide (e ≠ { lane := l, run := n }) := by
    rintro ⟨m, k⟩
    simp
  have still (p : RepairUnit) : ({ s with repair := p } : State).wake l = { s with repair := p } := by
    rw [State.wake_offeredAgain]
    refine congrArg (fun i : IntakePort => ({ s with repair := p, intake := i } : State)) ?_
    unfold IntakePort.offeredAgain
    rw [free, Bool.false_and, ← free]
  unfold State.gaveUp State.abandonRepair State.dropRepairEntry
  simp only [entry]
  split
  · rw [still]
    rfl
  · rfl

theorem Lane.deadlineRun?_some {x : Lane} (due : x.deadlineRun? c = some r) : r ∈ x.det.runs ∧ r.blocks = true := by
  unfold Lane.deadlineRun? Lane.blockingRun? at due
  split at due
  · have found := List.find?_some due
    exact ⟨List.mem_of_find?_eq_some due, (Bool.and_eq_true_iff.1 found).2⟩
  · contradiction

/-- Each deadline leaves fewer runs that hold samples back. -/
theorem State.blockers_takeDeadline_lt (due : (s.lane l).deadlineRun? c = some r) :
    ((s.takeDeadline l r.number).lane l).blockers < (s.lane l).blockers := by
  obtain ⟨listed, blocks⟩ := Lane.deadlineRun?_some due
  have fewer := (s.lane l).det.countP_giveUp_lt listed blocks
  have departed := (State.repairLeft_depart l (s.gaveUp l r.number)).runs.countP_blocks_le
  rw [State.lane_gaveUp] at departed
  rw [State.takeDeadline_eq]
  unfold Lane.blockers
  exact departed.trans_lt fewer

/-! ### One deadline after another -/

/-- Any bound that is not below the number of runs that hold samples back lets every deadline happen. -/
theorem State.deadlines_bound (c : Nat) : ∀ {m n : Nat} {s : State}, (s.lane l).blockers ≤ m → (s.lane l).blockers ≤ n →
    State.deadlines m l c s = State.deadlines n l c s
  | 0, 0, _, _, _ => rfl
  | 0, n + 1, s, low, _ => by
    cases due : (s.lane l).deadlineRun? c with
    | none => rw [State.deadlines, State.deadlines, due]
    | some r => exact absurd (State.blockers_takeDeadline_lt due) (by omega)
  | m + 1, 0, s, _, low => by
    cases due : (s.lane l).deadlineRun? c with
    | none => rw [State.deadlines, State.deadlines, due]
    | some r => exact absurd (State.blockers_takeDeadline_lt due) (by omega)
  | m + 1, n + 1, s, first, second => by
    cases due : (s.lane l).deadlineRun? c with
    | none => rw [State.deadlines, State.deadlines, due]
    | some r =>
      have fewer := State.blockers_takeDeadline_lt due
      rw [State.deadlines, State.deadlines, due]
      exact State.deadlines_bound c (by omega) (by omega)

/-- The deadlines that arise at an offer are the first one, and those that arise after it (R86, step 4). -/
theorem State.deadlines_first (due : (s.lane l).deadlineRun? c = some r) :
    State.deadlines (s.lane l).det.runs.length l c s =
      State.deadlines ((s.takeDeadline l r.number).lane l).det.runs.length l c (s.takeDeadline l r.number) := by
  have fewer := State.blockers_takeDeadline_lt due
  have most := (s.lane l).blockers_le_length
  have first : State.deadlines ((s.lane l).det.runs.length - 1 + 1) l c s =
      State.deadlines ((s.lane l).det.runs.length - 1) l c (s.takeDeadline l r.number) := by
    rw [State.deadlines, due]
  rw [← State.deadlines_bound c (s := s.takeDeadline l r.number) (m := (s.lane l).det.runs.length - 1) (by omega)
    (Lane.blockers_le_length _), ← first, Nat.sub_add_cancel (by omega)]

/-- A RUNNING lane without room whose head sample is due and lies in a QUEUED or REPAIRING run, the assembly free to take
it: the deadline arises on that run (R86). -/
theorem Lane.deadlineRun?_eq_some {x : Lane} {p : HeldParcel} {ps : List HeldParcel} (full : x.allocation < x.occupancy + c)
    (held : x.held = p :: ps) (due : x.config.lookahead ≤ x.nextPosition - 1 - (p.firstPosition + p.departed))
    (free : ∀ b ms f, x.assembly ≠ .complete b ms f) (listed : r ∈ x.det.runs)
    (covers : r.first ≤ p.firstPosition + p.departed ∧ p.firstPosition + p.departed ≤ r.last)
    (blocks : r.state = .queued ∨ r.state = .repairing)
    (only : ∀ q ∈ x.det.runs, q.first ≤ p.firstPosition + p.departed → p.firstPosition + p.departed ≤ q.last → q = r) :
    x.deadlineRun? c = some r := by
  have head : x.headPosition = p.firstPosition + p.departed := by unfold Lane.headPosition; rw [held]
  have arises : (!x.room c && !x.held.isEmpty && x.due x.headPosition && x.assembly.canTake) = true := by
    simp only [Bool.and_eq_true, Lane.due_iff, Assembly.canTake_iff, head, held]
    refine ⟨⟨⟨?_, rfl⟩, .inr due⟩, free⟩
    simpa [Lane.room] using full
  unfold Lane.deadlineRun? Lane.blockingRun?
  rw [if_pos arises, head]
  cases found : x.det.runs.find? fun q => q.covers (p.firstPosition + p.departed) && q.blocks with
  | none =>
    have barred := List.find?_eq_none.1 found r listed
    refine absurd ?_ barred
    simp only [RunRecord.covers, Bool.and_eq_true, decide_eq_true_eq]
    refine ⟨covers, ?_⟩
    unfold RunRecord.blocks
    rcases blocks with queued | repairing
    · rw [queued]
    · rw [repairing]
  | some q =>
    have own := List.find?_some found
    simp only [RunRecord.covers, Bool.and_eq_true, decide_eq_true_eq] at own
    rw [only q (List.mem_of_find?_eq_some found) own.1.1 own.1.2]

/-! ### The offer -/

theorem State.takeOrWait_deadlines {n : SeqNum} {ws : List Sample}
    (route : (s.lane l).config.route ≠ .echo ∧ (s.lane l).config.route ≠ .check) :
    s.takeOrWait l n ws =
      if ((State.deadlines (s.lane l).det.runs.length l ws.length s).lane l).room ws.length = true then
        (.take, (State.deadlines (s.lane l).det.runs.length l ws.length s).takeParcel l n ws false)
      else (.wait, State.deadlines (s.lane l).det.runs.length l ws.length s) := by
  unfold State.takeOrWait
  split
  · exact absurd ‹_› route.2
  · exact absurd ‹_› route.1
  all_goals rfl

end

/-- Settles O29: the deadline's departure is the lane's own work, after which fewer runs hold samples back, so the deadlines
that are left fit in the run table that is left. -/
theorem deadlineGivesUpTheHeadRun : Obligations.DeadlineGivesUpTheHeadRun := by
  unfold Obligations.DeadlineGivesUpTheHeadRun
  rintro s l n ws rest ln p ps r x u ready rfl running notEcho notCheck short inOrder full held rfl due free listed low high
    blocks only hu
  have gaveUp : u = s.gaveUp l r.number := hu.trans (State.gaveUp_eq ready.2.2 _).symm
  have arises : (s.lane l).deadlineRun? ws.length = some r :=
    Lane.deadlineRun?_eq_some full held due free listed ⟨low, high⟩ blocks only
  have still : (u.lane l).state = .running false := by
    rw [gaveUp, State.lane_gaveUp]
    exact running
  obtain ⟨departure, carried⟩ := State.depart_running still
  have left := State.repairLeft_depart l u
  have first := State.deadlines_first arises
  rw [State.takeDeadline_eq, ← gaveUp] at first
  have work : LaneWork l s (u.depart l) := (gaveUp ▸ s.gaveUp_laneWork l r.number).trans departure
  have lane := s.lane_gaveUp l r.number
  rw [← gaveUp] at lane
  have free : u.intake.headWaiting = false := by rw [hu]; exact ready.2.2
  generalize u.depart l = v at work carried left first ⊢
  obtain ⟨kept, others, -⟩ := work.kept
  have config : (v.lane l).config = (s.lane l).config := work.work.frame.config l
  have expected : (v.lane l).expected = (s.lane l).expected := by rw [carried.expected, lane]
  have now : (v.lane l).state = .running false := carried.state.trans still
  have intake : v.intake = { s.intake with headWaiting := v.intake.headWaiting } := work.work.frame.intake
  have ready' : OfferReady v (.samples l n ws) rest :=
    ⟨work.work.frame.resetLine.trans ready.1, by rw [intake]; exact ready.2.1, left.head free⟩
  have answer : s.answer (.samples l n ws) = v.answer (.samples l n ws) := by
    rw [State.answer_running running short inOrder,
      State.answer_running now (by rw [config]; exact short) (by unfold Lane.inOrder; rw [expected]; exact inOrder),
      State.takeOrWait_deadlines ⟨notEcho, notCheck⟩, State.takeOrWait_deadlines (by rw [config]; exact ⟨notEcho, notCheck⟩),
      first]
  refine ⟨?_, ready', now, ?_, others, kept⟩
  · rw [exec_offer_of_answer ready answer, exec_offer_of_answer ready' rfl]
  · refine left.runs.forall_state (P := fun st => st = .unrepaired .late) (fun st late opened => ?_) fun q hq number => ?_
    · rw [late] at opened
      contradiction
    · rw [lane] at hq
      obtain ⟨q', -, rfl⟩ := List.mem_map.1 hq
      split
      · rfl
      · rename_i other
        rw [if_neg other] at number
        exact absurd number other

end Sys2Proof.Machine
end

section
/-! The drain that a REEL_END mark begins (R23, R38, R128). -/

namespace Sys2Proof.Machine

/-! ### The drain within the lane's share -/

section
variable {s u : State} {l : LaneId}

theorem State.drainBegun_share (s : State) (l : LaneId) (d : DrainTarget) : LaneShare l s (s.drainBegun l d) := by
  have begun : LaneShare l s _ := .trans (.modLane s l fun x => x.inState (.draining d)) (.wake _ l)
  rw [State.wake_offeredAgain] at begun
  exact begun.trans (State.leftBy_share _ l l (s.lane l).hum.profile)

theorem State.beginDrain_share (runs : (s.lane l).state.isRunning = true) (d : DrainTarget) :
    LaneShare l s (s.beginDrain l d) := by
  obtain ⟨v, -, work, drains, -⟩ := State.beginDrain_carried runs d
  rw [drains]
  exact ((s.drainBegun_share l d).trans work.share).trans (v.settle_share l)

theorem State.lane_settle_armed {v : State} (st : (v.lane l).state = .draining .armed)
    (empty : (v.lane l).workEmpty = true) : (v.settle l).lane l = (v.lane l).inState .armed := by
  rw [State.settle_armed empty st, State.lane_issue]
  exact State.lane_of_set (s := v) rfl

/-- What a drain toward ARMED makes of a lane entry (R10, R23, R25, R57). -/
structure Lane.DrainedToArmed (x y : Lane) : Prop where
  state : y.state = .armed ∨ y.state = .draining .armed
  ends : y.state = .armed ↔ y.held = [] ∧ y.assembly = .empty ∧ y.marks = []
  counters : ∀ c : LaneCounter, c ≠ .runsRepaired → c ≠ .runsUnrepaired → c ≠ .lateSplices → y.counter c = x.counter c
  settled : ∀ r ∈ y.det.runs, r.growing = false
  allocation : y.allocation = x.allocation
  expected : y.expected = x.expected
  timer : y.timer = x.timer.stop

theorem State.beginDrain_armed_lane (running : (u.lane l).state = .running false) :
    (u.lane l).DrainedToArmed ((u.beginDrain l .armed).lane l) := by
  obtain ⟨v, x, -, drains, carried, a, e, isX, closed⟩ :=
    State.beginDrain_carried (s := u) (l := l) (by rw [running]; rfl) .armed
  subst isX
  have state : (v.lane l).state = .draining .armed := carried.state
  have settled := carried.settled (closed (by rw [running]; rfl))
  rw [drains]
  by_cases empty : (v.lane l).workEmpty = true
  · rw [State.lane_settle_armed state empty]
    exact ⟨.inl rfl, iff_of_true rfl ((Lane.workEmpty_iff _).1 empty), carried.counters, settled, carried.allocation,
      carried.expected, (congrArg Timer.stop carried.timer).trans rfl⟩
  · rw [State.settle_none fun done => empty done.1]
    refine ⟨.inr state, ?_, carried.counters, settled, carried.allocation, carried.expected, carried.timer⟩
    rw [state]
    exact iff_of_false (by simp) fun none => empty ((Lane.workEmpty_iff _).2 none)

/-! ### The part in which the mark has been placed or lost -/

/-- Part u is part s with the mark list and the counters of lane l, and the notices, as an offered mark leaves them
(R20, R21). -/
structure State.MarkPut (s : State) (l : LaneId) (u : State) : Prop where
  share : LaneShare l s u
  others : ∀ m : LaneId, m ≠ l → u.lane m = s.lane m
  profiles : u.profiles = s.profiles
  checker : u.checker = s.checker
  entry : ∃ ms c, u.lane l = { s.lane l with marks := ms, counters := c }

theorem State.MarkPut.withLane (s : State) (l : LaneId) (ms : List MarkEntry) (c : Vector Counter 16) :
    s.MarkPut l (s.withLane l { s.lane l with marks := ms, counters := c }) where
  share := .modLane s l fun x => { x with marks := ms, counters := c }
  others _ hm := State.lane_withLane_ne s _ hm
  profiles := rfl
  checker := rfl
  entry := ⟨ms, c, State.lane_withLane_same s l _⟩

theorem State.MarkPut.issue (h : s.MarkPut l u) (n : Notice) : s.MarkPut l (u.issue n) where
  share := h.share.trans (.issue u n)
  others m hm := (State.lane_issue u n m).trans (h.others m hm)
  profiles := h.profiles
  checker := h.checker
  entry := h.entry

/-- What the drain leaves of the rest of the part, told of the part before the mark with another intake port. -/
theorem State.MarkPut.drained (h : s.MarkPut l u) (running : (s.lane l).state = .running false) (p : IntakePort) :
    OtherLanesKept s { u.beginDrain l .armed with intake := p } l
      ∧ ProfilesAfterLeaving s { u.beginDrain l .armed with intake := p } l
      ∧ WorkKept { s with intake := p } { u.beginDrain l .armed with intake := p } l := by
  obtain ⟨ms, c, entry⟩ := h.entry
  have was : (u.lane l).state.isRunning = true := by rw [entry]; exact congrArg LaneState.isRunning running
  obtain ⟨kept, others, profiles, now⟩ := State.beginDrain_kept was .armed
  obtain ⟨-, -, -, -, -, -, -, -, -, -, -, -, -, -, -, -, -, checker, -⟩ := kept
  have share := (State.Takes.self running).share (h.share.trans (State.beginDrain_share was .armed)) p
  rw [ProfilesIfLeft, if_pos ⟨was, now⟩] at profiles
  generalize u.beginDrain l .armed = t at others profiles now checker share
  have profile (k : ProfileId) : u.profile k = s.profile k :=
    congrArg (fun ps : Vector HumProfile 8 => ps[k]) h.profiles
  refine ⟨fun m hm => ?_, fun k => ?_, share.kept ?_⟩
  · have shift : u.phaseAfter t m = s.phaseAfter { t with intake := p } m := by
      unfold State.phaseAfter
      rw [h.others m hm]
      simp only [profile]
      rfl
    exact (others m hm).trans (by rw [h.others m hm, shift])
  · have own : (u.lane l).uses k = (s.lane l).uses k := by rw [entry]; rfl
    have users : (∀ m : LaneId, m ≠ l → (u.lane m).uses k = false) ↔ ∀ m : LaneId, m ≠ l → (s.lane m).uses k = false :=
      forall₂_congr fun m hm => by rw [h.others m hm]
    refine (profiles k).trans (if_congr ?_ (by rw [profile]) (profile k))
    rw [own, profile, users]
  · have before : (({ s with intake := p } : State).lane l).state.isRunning = true := congrArg LaneState.isRunning running
    rw [CheckerIfLeft, h.checker] at checker
    refine checker.trans (congrArg (fun st => ({ s.checker with state := st } : Checker)) (if_congr ?_ rfl rfl))
    exact and_congr Iff.rfl (and_congr (iff_of_true was before) Iff.rfl)

end

/-! ### The offer -/

section
variable {s u : State} {l : LaneId} {n : SeqNum} {o : Nat} {v : Word} {rest : List InParcel}

/-- A mark that the lane takes, or discards, joins or misses a mark list; a REEL_END mark then begins the drain (R21,
R23). -/
theorem State.answer_reelEnd (running : (s.lane l).state = .running false)
    (route : (s.lane l).config.route ≠ .echo ∧ (s.lane l).config.route ≠ .check) :
    ∃ u a, s.answer (.mark l .reelEnd n o v) = (a, u.beginDrain l .armed) ∧ s.MarkPut l u
      ∧ (u.lane l).counter .marksAccepted
          = satBump ((s.lane l).counter .marksAccepted) (if (s.lane l).marks.length < 8 then 1 else 0)
      ∧ (u.lane l).counter .markListFull
          = satBump ((s.lane l).counter .markListFull) (if (s.lane l).marks.length < 8 then 0 else 1)
      ∧ a = if (s.lane l).marks.length < 8 then .take else .discard := by
  have answer := State.answer_mark_held (k := .reelEnd) (n := n) (o := o) (v := v) running route
  by_cases room : (s.lane l).marks.length < 8
  · rw [State.offerMark_room room, State.placeMark_timely (k := .reelEnd) fun h => nomatch h.1] at answer
    refine ⟨_, _, answer, .withLane s l _ _, ?_, ?_, (if_pos room).symm⟩
    · rw [if_pos room, State.lane_withLane_same]
      exact (s.lane l).counter_bump_same .marksAccepted 1
    · rw [if_pos room, State.lane_withLane_same, satBump_zero]
      exact (s.lane l).counter_bump_ne 1 (by decide)
  · rw [State.offerMark_full (Nat.not_lt.1 room)] at answer
    unfold State.loseMark at answer
    rw [State.count_eq_withLane] at answer
    refine ⟨_, _, answer, .issue (.withLane s l (s.lane l).marks _) _, ?_, ?_, (if_neg room).symm⟩
    · rw [if_neg room, State.lane_issue, State.lane_withLane_same, satBump_zero]
      exact (s.lane l).counter_bump_ne 1 (by decide)
    · rw [if_neg room, State.lane_issue, State.lane_withLane_same]
      exact (s.lane l).counter_bump_same .markListFull 1

end

end Sys2Proof.Machine
end

section
/-! Reel marks on a RUNNING lane (R20 to R23, R38, R42, R128). -/

namespace Sys2Proof.Machine

/-! ### What a lane's leaving makes of the shared units, and the ports -/

section
variable {s u : State} {l : LaneId}

theorem State.leftBy_withIntake (u : State) (l : LaneId) (old : Option ProfileId) (p : IntakePort) :
    (u.withIntake p).leftBy l old = (u.leftBy l old).withIntake p := by
  have left : (u.withIntake p).userLeft old = (u.userLeft old).withIntake p := by
    unfold State.userLeft State.swapIfUnused
    split
    · change (if (u.profile _).swapPending && !u.hasUser _ then _ else _)
        = State.withIntake (if (u.profile _).swapPending && !u.hasUser _ then _ else _) p
      split <;> rfl
    · rfl
  rw [← State.leftBy_eq, ← State.leftBy_eq, left]
  unfold State.checkerLoss State.checkerSearch State.withIntake
  dsimp only
  split
  · split <;> rfl
  · rfl

theorem DeliveryPort.issue_withSamples (d : DeliveryPort) (n : Notice) (q : List OutParcel) :
    DeliveryPort.issue { d with samples := q } n = { d.issue n with samples := q } := by
  have due (e : DeliveryPort) : DeliveryPort.commitDue { e with samples := q } = { e.commitDue with samples := q } := by
    unfold DeliveryPort.commitDue
    change (if e.messageRoom then _ else _) = ({ (if e.messageRoom then _ else _ : DeliveryPort) with samples := q })
    split <;> rfl
  unfold DeliveryPort.issue
  change (if d.batch.length < _ then if (d.join n).batch.length = _ then DeliveryPort.commitDue { d.join n with samples := q }
      else _ else _) = _
  split
  · split
    · exact due (d.join n)
    · rfl
  · rfl

theorem State.issue_pushSample (s : State) (n : Notice) (p : OutParcel) :
    (s.pushSample p).issue n = (s.issue n).pushSample p := by
  unfold State.pushSample
  rw [State.delivery_issue, DeliveryPort.samples_issue]
  exact congrArg (fun d : DeliveryPort => ({ s with delivery := d } : State)) (s.delivery.issue_withSamples n _)

theorem State.leftBy_pushSample (u : State) (l : LaneId) (old : Option ProfileId) (p : OutParcel) :
    (u.pushSample p).leftBy l old = (u.leftBy l old).pushSample p := by
  have left : (u.pushSample p).userLeft old = (u.userLeft old).pushSample p := by
    unfold State.userLeft State.swapIfUnused
    split
    · rename_i k
      change (if (u.profile k).swapPending && !u.hasUser k then _ else _)
        = State.pushSample (if (u.profile k).swapPending && !u.hasUser k then _ else _) p
      split
      · rw [State.swap_eq, State.swap_eq, ← State.issue_pushSample]
        rfl
      · rfl
    · rfl
  rw [← State.leftBy_eq, ← State.leftBy_eq, left]
  unfold State.checkerLoss State.checkerSearch
  change (if (u.userLeft old).checker.lane = some l then _ else _) = State.pushSample
    (if (u.userLeft old).checker.lane = some l then _ else _) p
  split
  · change (if (u.userLeft old).checker.state.isLocked then _ else _) = State.pushSample
      (if (u.userLeft old).checker.state.isLocked then _ else _) p
    split
    · exact State.issue_pushSample ((u.userLeft old).setCheckerState .search) _ p
    · rfl
  · rfl

/-! ### The drain of an empty lane toward ARMED -/

theorem State.drainBegun_pushSample (s : State) (l : LaneId) (d : DrainTarget) (p : OutParcel) :
    (s.pushSample p).drainBegun l d = (s.drainBegun l d).pushSample p :=
  State.leftBy_pushSample
    { s with
      lanes := s.lanes.set l ((s.lane l).inState (.draining d))
      intake := s.intake.offeredAgain l } l _ p

theorem State.beginDrain_running (running : (s.lane l).state = .running false) (d : DrainTarget) :
    s.beginDrain l d = (s.drainBegun l d).flush l := by
  unfold State.beginDrain
  dsimp only
  rw [State.changeState_drain (by rw [running]; rfl), running]
  exact if_neg Bool.false_ne_true

/-- A lane with nothing held and no run drains toward ARMED in one event: its leaving RUNNING is made of the shared units
with its entry at rest, or before (R10, R38). -/
theorem State.beginDrain_armed_empty (running : (s.lane l).state = .running false) (held : (s.lane l).held = [])
    (records : (s.lane l).det.runs = []) (assembly : (s.lane l).assembly = .empty) (marks : (s.lane l).marks = []) :
    s.beginDrain l .armed =
      State.issue
        (State.leftBy
          { s with
            lanes := s.lanes.set l (Lane.inState { s.lane l with det := (s.lane l).det.cut } .armed)
            intake := s.intake.offeredAgain l } l (s.lane l).hum.profile)
        (noticeOf .laneArmed (some l) 0 0) := by
  obtain ⟨a, lane⟩ := State.lane_drainBegun (s := s) (l := l) .armed
  have drained := State.drainBegun_modLane (s := s) (l := l) (d := .armed)
    (f := fun x => Lane.inState { x with det := x.det.cut } .armed)
    (fun x k n => by by_cases own : x.hum.profile = some k <;> simp [Lane.reducePhase, Lane.inState, own])
    fun _ _ => rfl
  have now : ((s.drainBegun l .armed).modDet l Detector.cut).lane l
      = { (s.lane l).inState (.draining .armed) with hum := a, det := (s.lane l).det.cut } := by
    unfold State.modDet
    rw [State.lane_modLane_same, lane]
    rfl
  rw [State.beginDrain_running running, State.flush_empty (by rw [lane]; exact held) (by rw [lane]; exact records)
    (by rw [lane]; exact marks), State.settle_armed (by rw [now]; exact (Lane.workEmpty_iff _).2 ⟨held, assembly, marks⟩)
    (by rw [now]; rfl)]
  refine congrArg (fun t : State => t.issue (noticeOf .laneArmed (some l) 0 0)) (Eq.trans ?_ drained)
  simp [State.modDet, State.modLane, State.lane, State.offeredAgain_drainBegun]

/-! ### A trailing mark of an empty lane -/

theorem State.flush_unheld (held : (s.lane l).held = []) (runs : (s.lane l).det.runs = []) :
    s.flush l = ((s.modDet l Detector.cut).placeTrailingMarks l).settle l := by
  have cut : (s.modDet l Detector.cut).lane l = { s.lane l with det := (s.lane l).det.cut } := State.lane_modLane_same s l _
  have none : ((s.modDet l Detector.cut).lane l).occupancy = 0 := by
    rw [cut, Lane.occupancy, held]
    rfl
  have unreleased : (s.modDet l Detector.cut).releaseRuns l = s.modDet l Detector.cut := by
    refine State.releaseRuns_none fun r hr => ?_
    rw [cut] at hr
    change r ∈ (s.lane l).det.runs.map RunRecord.cut at hr
    rw [runs] at hr
    contradiction
  unfold State.flush
  dsimp only
  rw [none, State.departUpTo, unreleased]

/-- The only mark of an empty lane leaves the part in the flush, as if it had been forwarded before it (R105). -/
theorem State.flush_trailing {m : MarkEntry} (state : (s.lane l).state.isFlushing = true) (held : (s.lane l).held = [])
    (runs : (s.lane l).det.runs = []) (assembly : (s.lane l).assembly = .empty) (marks : (s.lane l).marks = [])
    (plain : m.kind ≠ .splice) (room : s.sampleRoom = true) :
    (s.modLane l fun x => { x with marks := [m] }).flush l
      = (s.pushSample (.mark l m.kind m.seq m.offset m.value)).flush l := by
  have entry : (s.modLane l fun x => { x with marks := [m] }).lane l = { s.lane l with marks := [m] } :=
    State.lane_modLane_same s l _
  have now : ((s.modLane l fun x => { x with marks := [m] }).modDet l Detector.cut).lane l
      = { s.lane l with marks := [m], det := (s.lane l).det.cut } := by
    unfold State.modDet
    rw [State.lane_modLane_same, entry]
  have trailing : (((s.modLane l fun x => { x with marks := [m] }).modDet l Detector.cut).lane l).trailing = true := by
    rw [now]
    exact (Lane.trailing_iff _).2 ⟨state, held, assembly, List.cons_ne_nil _ _⟩
  have left : ((s.modLane l fun x => { x with marks := [m] }).modDet l Detector.cut).trailingPlaced l m []
      = (s.pushSample (.mark l m.kind m.seq m.offset m.value)).modDet l Detector.cut := by
    unfold State.trailingPlaced
    dsimp only
    rw [if_neg fun h => plain h.1, now, ← marks]
    simp only [State.modDet_eq_withLane, State.modLane_eq_withLane, State.withLane_withLane]
    rfl
  rw [State.flush_unheld (by rw [entry]; exact held) (by rw [entry]; exact runs),
    State.flush_empty (s := s.pushSample _) held runs marks,
    State.placeTrailingMarks_step (m := m) (ms := []) trailing (by rw [now]) room, State.placeTrailingMarks_none, left]
  rw [Lane.trailing_iff, State.marks_trailingPlaced]
  exact fun h => h.2.2.2 rfl

/-- On an empty lane a drain that finds one mark in the list is the drain of the lane that has forwarded it (R20, R105). -/
theorem State.beginDrain_marked {m : MarkEntry} (running : (s.lane l).state = .running false)
    (held : (s.lane l).held = []) (records : (s.lane l).det.runs = []) (assembly : (s.lane l).assembly = .empty)
    (marks : (s.lane l).marks = []) (plain : m.kind ≠ .splice) (room : s.sampleRoom = true) :
    (s.modLane l fun x => { x with marks := [m] }).beginDrain l .armed
      = (s.pushSample (.mark l m.kind m.seq m.offset m.value)).beginDrain l .armed := by
  obtain ⟨a, lane⟩ := State.lane_drainBegun (s := s) (l := l) .armed
  have entry : (s.modLane l fun x => { x with marks := [m] }).lane l = { s.lane l with marks := [m] } :=
    State.lane_modLane_same s l _
  have begun : (s.modLane l fun x => { x with marks := [m] }).drainBegun l .armed
      = (s.drainBegun l .armed).modLane l fun x => { x with marks := [m] } := by
    rw [State.drainBegun_modLane (f := fun x => { x with marks := [m] })
      (fun x k n => by by_cases own : x.hum.profile = some k <;> simp [Lane.reducePhase, own]) fun _ still => still]
    unfold State.drainBegun
    rw [entry]
    simp [State.modLane, Lane.inState]
  have free : (s.drainBegun l .armed).sampleRoom = true := by
    rw [State.sampleRoom_iff, State.drainBegun, State.samples_leftBy]
    exact s.sampleRoom_iff.1 room
  rw [State.beginDrain_running (by rw [entry]; exact running),
    State.beginDrain_running (s := s.pushSample _) running, begun, State.drainBegun_pushSample]
  refine State.flush_trailing ?_ ?_ ?_ ?_ ?_ plain free
  all_goals rw [lane]
  · rfl
  · exact held
  · exact records
  · exact assembly
  · exact marks

end

/-! ### The offer to an empty lane -/

section
variable {s : State} {l : LaneId} {n : SeqNum} {o : Nat} {v : Word} {rest : List InParcel}

/-- On every route an empty lane forwards a REEL_END mark and drains (R20, R23). -/
theorem State.answer_reelEnd_empty (running : (s.lane l).state = .running false) (held : (s.lane l).held = [])
    (records : (s.lane l).det.runs = []) (assembly : (s.lane l).assembly = .empty) (marks : (s.lane l).marks = [])
    (room : s.sampleRoom = true) :
    s.answer (.mark l .reelEnd n o v) =
      (.take,
        ((s.withLane l ((s.lane l).counted .marksAccepted 1)).pushSample (.mark l .reelEnd n o v)).beginDrain l .armed) := by
  by_cases route : (s.lane l).config.route ≠ .echo ∧ (s.lane l).config.route ≠ .check
  · rw [State.answer_mark_held running route, State.offerMark_room (by rw [marks]; decide),
      State.placeMark_timely (k := .reelEnd) fun h => nomatch h.1]
    refine congrArg (Prod.mk Answer.take) ?_
    have placed : s.withLane l
          { (s.lane l).counted .marksAccepted 1 with
            marks := (s.lane l).marks ++
              [{ kind := .reelEnd, seq := n, offset := o, value := v
                 spanPending := decide (MarkKind.reelEnd = .splice ∧ (s.lane l).config.route = .restore) }] }
        = (s.withLane l ((s.lane l).counted .marksAccepted 1)).modLane l fun x =>
            { x with marks := [markEntry .reelEnd n o v (s.lane l).config.route] } := by
      rw [State.modLane_eq_withLane, State.withLane_withLane, State.lane_withLane_same, marks]
      simp [markEntry]
    rw [placed]
    refine State.beginDrain_marked (s := s.withLane l _) (m := markEntry .reelEnd n o v (s.lane l).config.route)
      ?_ ?_ ?_ ?_ ?_ (fun h => nomatch h) room
    all_goals rw [State.lane_withLane_same]
    · exact running
    · exact held
    · exact records
    · exact assembly
    · exact marks
  · have passing : (s.lane l).config.route = .echo ∨ (s.lane l).config.route = .check := by
      rwa [not_and_or, not_not, not_not] at route
    rw [State.answer_mark_passing running passing, if_pos room, State.forwardMark_eq]
    rfl

end

/-- Settles O31: REEL_START is placed or lost beside what it makes of the hum state; REEL_END begins the drain, on an empty
lane behind the mark that has left it. -/
theorem reelMarksActOnARunningLane : Obligations.ReelMarksActOnARunningLane := by
  unfold Obligations.ReelMarksActOnARunningLane
  rintro s l n o v rest ln rfl running
  refine ⟨fun ready notEcho notCheck hum hhum => ?_, fun ready => ⟨fun notEcho notCheck c hc => ?_,
    fun held records assembly marks free => ?_⟩⟩
  · have answer : s.answer (.mark l .reelStart n o v)
        = s.markRunning l (markEntry .reelStart n o v (s.lane l).config.route) := by
      change s.answerMark l (s.offeredMark l .reelStart n o v) = _
      unfold State.answerMark
      rw [running]
    have own : hum = s.humAtReel (s.lane l) := hhum
    refine ⟨fun room => ?_, fun full => ?_⟩
    · rw [State.markRunning_reelStart_room ⟨notEcho, notCheck⟩ room, ← own] at answer
      exact exec_offer_removes ready (.inl ⟨rfl, rfl⟩) answer (b := s.intake.headWaiting) rfl
    · rw [State.markRunning_reelStart_full ⟨notEcho, notCheck⟩ full, ← own] at answer
      exact exec_offer_removes ready (.inr ⟨rfl, rfl⟩) answer (b := s.intake.headWaiting) rfl
  · obtain ⟨u, a, answer, put, accepted, lost, acted⟩ :=
      State.answer_reelEnd (n := n) (o := o) (v := v) running ⟨notEcho, notCheck⟩
    obtain ⟨ms, counts, entry⟩ := put.entry
    have was : (u.lane l).state = .running false := by rw [entry]; exact running
    have intake := (put.share.trans (State.beginDrain_share (s := u) (l := l) (by rw [was]; rfl) .armed)).work.intake
    have counter : a = .take ∧ c = .taken ∨ a = .discard ∧ c = .discards := by
      by_cases room : (s.lane l).marks.length < 8
      · exact .inl ⟨acted.trans (if_pos room), hc.trans (if_pos room)⟩
      · exact .inr ⟨acted.trans (if_neg room), hc.trans (if_neg room)⟩
    have drained := State.beginDrain_armed_lane was
    obtain ⟨others, profiles, kept⟩ := put.drained running (s.intake.headGone rest c)
    refine ⟨_, exec_offer_removes ready counter answer intake, drained.state, drained.ends, ?_, ?_, drained.settled, ?_, ?_, ?_,
      others, profiles, kept⟩
    · exact (drained.counters .marksAccepted (by decide) (by decide) (by decide)).trans accepted
    · exact (drained.counters .markListFull (by decide) (by decide) (by decide)).trans lost
    · exact drained.allocation.trans (by rw [entry])
    · exact drained.expected.trans (by rw [entry])
    · exact drained.timer.trans (by rw [entry]; rfl)
  · have answer := State.answer_reelEnd_empty (n := n) (o := o) (v := v) running held records assembly marks
      (s.sampleRoom_iff.2 free)
    generalize hu : (s.withLane l ((s.lane l).counted .marksAccepted 1)).pushSample (.mark l .reelEnd n o v) = u at answer
    have entry : u.lane l = (s.lane l).counted .marksAccepted 1 := by
      rw [← hu]
      exact State.lane_withLane_same s l _
    have drains := State.beginDrain_armed_empty (s := u) (l := l) (by rw [entry]; exact running) (by rw [entry]; exact held)
      (by rw [entry]; exact records) (by rw [entry]; exact assembly) (by rw [entry]; exact marks)
    generalize hx : State.leftBy
      { u with
        lanes := u.lanes.set l (Lane.inState { u.lane l with det := (u.lane l).det.cut } .armed)
        intake := u.intake.offeredAgain l } l (u.lane l).hum.profile = x at drains
    have intake : x.intake = s.intake.offeredAgain l := by
      rw [← hx, State.intake_leftBy, ← hu]
      rfl
    rw [drains] at answer
    refine (exec_offer_removes ready (.inl ⟨rfl, rfl⟩) answer intake).trans (congrArg Host.Outcome.next ?_)
    refine congrArg (fun t : State => t.issue (noticeOf .laneArmed (some l) 0 0))
      (a₁ := x.withIntake (s.intake.headGone rest .taken)) ?_
    rw [← hx, ← State.leftBy_withIntake, entry, ← hu,
      Detector.cut_none (show ((s.lane l).counted .marksAccepted 1).det.runs = [] from records)]
    simp [State.withIntake, State.headActedOn, State.pushSample, State.withLane, Lane.inState, Lane.counted, Timer.stop]

end Sys2Proof.Machine
end
